-- ==== Sys2Proof/Word.lean ====
section
/-! DEFINITION. The words of the core: its bytes and register widths, and the big-endian joining of bytes. -/

namespace Sys2Proof

/-- One byte on the bus, one command word, one register address (00_scope.md R11, 30_encoding.md R60). -/
abbrev Byte := BitVec 8

/-- A calibration word `C[i]` and the CRC remainder: `u16` (10_state.md R20). -/
abbrev Word16 := BitVec 16

/-- A raw sample `D1`, `D2`: `u24` (10_state.md R25). -/
abbrev Word24 := BitVec 24

/-- The output registers `TEMP2` and `P`: `s32`, two's complement (10_state.md R31). -/
abbrev Word32 := BitVec 32

/-- The output register `DEPTH_E10`: `s64`, two's complement (10_state.md R31). -/
abbrev Word64 := BitVec 64

/-- A CRC nibble: `u4` (10_state.md R24). -/
abbrev Nibble := BitVec 4

end Sys2Proof
end

