-- ==== Sys2Proof/Config.lean ====
section
/-! DEFINITION. What an implementation fixes (00_scope.md R5) and the values the spec leaves to the environment
(20_memory.md R57, 10_state.md R34): constants without a body. -/

namespace Sys2Proof

/-- The transport's error values, `TErr` of 00_scope.md R11: opaque, copied to TERR and never inspected.
DESIGN CHOICE (log 9): distinct errors are told apart by a number of any size. Safe. -/
structure TErr where
  code : Nat
deriving DecidableEq, Repr, Inhabited

/-- One call of a bus primitive (00_scope.md R11): `BusWrite(dev, b)` or `BusRead(dev, reg, n)`. -/
inductive BusCall where
  | write (dev : Byte) (b : Byte)
  | read  (dev : Byte) (reg : Byte) (n : Nat)
deriving DecidableEq, Repr, Inhabited

/-- What the transport answers to one call (00_scope.md R11, 20_memory.md R57). An `ok` to a read of `n` bytes
carries exactly `n` of them: the first `n` of the three held here; to a write it carries none (log 11). -/
inductive BusAnswer where
  | ok  (b0 b1 b2 : Byte)
  | err (e : TErr)
deriving DecidableEq, Repr, Inhabited

namespace Config

/-- The pin strap that chooses the device address (00_scope.md R6): false 0x76, true 0x77. Left open (log 7). -/
opaque strap : Bool

/-- `DEV_ADDR` of 00_scope.md R5, R6: 0x76, or 0x77 by the strap. -/
def devAddr : Byte := if strap then 0x77#8 else 0x76#8

/-- `RES` of 00_scope.md R7: the oversampling setting, in 0..15. Left open (log 7). -/
opaque res : Fin 16

/-- `T_CONV` of 00_scope.md R8, in microseconds. Left open (log 7). -/
opaque tConv : Nat

/-- `T_RESET` of 00_scope.md R9, 10 ms, in microseconds (log 8). -/
def tReset : Nat := 10000

/-- The oracle of 20_memory.md R57: the answer to the `k`-th bus call of a run, when that call is `call`. A FREE
VALUE (log 2): any `ok` or `err` and any bytes, under no law. Safe. -/
opaque oracle (k : Nat) (call : BusCall) : BusAnswer

/-- What the host read port returns for register `n` while that register is not valid (10_state.md R34,
93_implementation_defined.md U5), at the `k`-th read of a run. A FREE VALUE (log 10). Safe. -/
opaque unspecifiedRead (k : Nat) (n : Byte) : Word64

/-- The same for `TERR`, whose type is not a number. A FREE VALUE (log 10). Safe. -/
opaque unspecifiedError (k : Nat) : TErr

end Config

end Sys2Proof
end

