-- ==== Sys2Proof/Syntax.lean ====
section
/-! DEFINITION. The instructions: one constructor for each of the seventeen rows of spec/opcode_table.json, and the
two enumerated operands of the host commands. -/

namespace Sys2Proof

/-- The channel of a conversion (41_conversion_sequencer.md R102): an explicit two-valued tag. -/
inductive Channel where
  | pressure
  | temperature
deriving DecidableEq, Repr, Inhabited

/-- The WaterTypeMode (10_state.md R27). -/
inductive WaterMode where
  | fresh
  | salt
deriving DecidableEq, Repr, Inhabited

/-- The rows of the opcode table. The first twelve are the legal host command words (30_encoding.md R61); the last
five are the device-side words the core puts on the bus (30_encoding.md R65 to R68), whose fields are checked by
`Instr.WellFormed`. -/
inductive Instr where
  /-- INIT, `0x10` (43_initialize.md R170). -/
  | init
  /-- RESET, `0x20` (41_conversion_sequencer.md R103). -/
  | reset
  /-- LOADCAL, `0x30` (40_calibration_crc.md R80). -/
  | loadcal
  /-- START P, `0x41` (41_conversion_sequencer.md R104). -/
  | startP
  /-- START T, `0x42` (41_conversion_sequencer.md R104). -/
  | startT
  /-- READ P, `0x51` (41_conversion_sequencer.md R105). -/
  | readP
  /-- READ T, `0x52` (41_conversion_sequencer.md R105). -/
  | readT
  /-- CONVERT P, `0x61` (41_conversion_sequencer.md R106). -/
  | convertP
  /-- CONVERT T, `0x62` (41_conversion_sequencer.md R106). -/
  | convertT
  /-- SETWATER FRESH, `0x71` (42_compensation.md R130). -/
  | setwaterFresh
  /-- SETWATER SALT, `0x72` (42_compensation.md R130). -/
  | setwaterSalt
  /-- GETREADING, `0x80` (42_compensation.md R131). -/
  | getreading
  /-- DEV_RESET, control byte `0x1E` (30_encoding.md R65). -/
  | devReset
  /-- DEV_CONV_D1, control byte `0x40 + r` (30_encoding.md R66). -/
  | devConvD1 (r : Nat)
  /-- DEV_CONV_D2, control byte `0x50 + r` (30_encoding.md R66). -/
  | devConvD2 (r : Nat)
  /-- DEV_PROM_READ, register address `0xA0 + 2*k`, two bytes (30_encoding.md R67). -/
  | devPromRead (k : Nat)
  /-- DEV_ADC_READ, register address `0x00`, three bytes (30_encoding.md R68). -/
  | devAdcRead
deriving DecidableEq, Repr, Inhabited

/-- START by its channel operand (30_encoding.md R62). -/
def Channel.startInstr : Channel → Instr
  | .pressure => .startP
  | .temperature => .startT

/-- READ by its channel operand (30_encoding.md R62). -/
def Channel.readInstr : Channel → Instr
  | .pressure => .readP
  | .temperature => .readT

/-- CONVERT by its channel operand (30_encoding.md R62). -/
def Channel.convertInstr : Channel → Instr
  | .pressure => .convertP
  | .temperature => .convertT

/-- SETWATER by its water operand (30_encoding.md R62). -/
def WaterMode.setwaterInstr : WaterMode → Instr
  | .fresh => .setwaterFresh
  | .salt => .setwaterSalt

end Sys2Proof
end

