-- ==== Sys2Proof/WellFormed.lean ====
section
/-! DEFINITION. Which terms of `Instr` are instructions: the fields of the device-side words lie in the domains the
spec gives them. The host commands have no field. -/

namespace Sys2Proof

/-- The resolution addend of a conversion byte lies in `0..15` (00_scope.md R7, 30_encoding.md R66). -/
abbrev ResolutionInDomain (r : Nat) : Prop := r ≤ 15

/-- The word index of a PROM read lies in `0..7` (30_encoding.md R67). -/
abbrev PromIndexInDomain (k : Nat) : Prop := k ≤ 7

/-- The instruction's fields lie in their domains. -/
def Instr.wellFormed : Instr → Bool
  | .init | .reset | .loadcal => true
  | .startP | .startT | .readP | .readT | .convertP | .convertT => true
  | .setwaterFresh | .setwaterSalt | .getreading => true
  | .devReset | .devAdcRead => true
  | .devConvD1 r | .devConvD2 r => decide (ResolutionInDomain r)
  | .devPromRead k => decide (PromIndexInDomain k)

/-- `Instr.wellFormed` as a proposition. -/
abbrev Instr.WellFormed (i : Instr) : Prop := i.wellFormed = true

end Sys2Proof
end

