-- ==== Sys2Proof/Decode.lean ====
section
/-! DEFINITION. Decoding of the host command word and of the device-side words, the encoder, the decoding that
spec/opcode_table.json's numbering asks for, and the script lines of the spec's assembler. -/

namespace Sys2Proof

/-- A word together with the format under which it is read (30_encoding.md R60 and section 2): a host command word,
a control byte the core writes, a register address the core reads from. One byte means different things under
different formats; the formats never meet on one wire. -/
inductive Encoded where
  | cmd  (w : Byte)
  | ctrl (b : Byte)
  | reg  (a : Byte)
deriving DecidableEq, Repr, Inhabited

/-- Why a word is no instruction of its format. The first three are the clauses of 30_encoding.md R63. -/
inductive DecodeReject where
  /-- `op` is `0x0` or `0x9..0xF`. -/
  | illegalOpcode
  /-- A command without operand whose `arg` is not 0. -/
  | operandNotZero
  /-- START, READ, CONVERT or SETWATER whose `arg` is neither `0x1` nor `0x2`. -/
  | illegalOperandTag
  /-- Not a control byte the core writes (20_memory.md R47). -/
  | notAControlByte
  /-- Not a register address the core reads (20_memory.md R46, R50). -/
  | notARegisterAddress
deriving DecidableEq, Repr

/-- What decoding answers: an instruction, or a rejection by name. -/
inductive Decoded where
  | instr (i : Instr)
  | reject (why : DecodeReject)
deriving DecidableEq, Repr

/-- The instruction, if there is one. -/
def Decoded.instr? : Decoded → Option Instr
  | .instr i => some i
  | .reject _ => none

/-- `op = w[7:4]` (30_encoding.md R60). -/
def opField (w : Byte) : Nat := (w.extractLsb' 4 4).toNat

/-- `arg = w[3:0]` (30_encoding.md R60). -/
def argField (w : Byte) : Nat := (w.extractLsb' 0 4).toNat

/-- A command without operand: `arg` must be 0 (30_encoding.md R60). -/
def noOperand (i : Instr) : Nat → Decoded
  | 0 => .instr i
  | _ + 1 => .reject .operandNotZero

/-- A command with a two-valued tag: `arg` is compared for equality with `0x1` and with `0x2`, any other value is
illegal (30_encoding.md R62). -/
def taggedOperand (one two : Instr) (arg : Nat) : Decoded :=
  if arg = 1 then .instr one
  else if arg = 2 then .instr two
  else .reject .illegalOperandTag

/-- The decoder of the host command word (30_encoding.md R61, R63, R64): total, and a function of the word alone. -/
def decodeCmd (w : Byte) : Decoded :=
  match opField w with
  | 1 => noOperand .init (argField w)
  | 2 => noOperand .reset (argField w)
  | 3 => noOperand .loadcal (argField w)
  | 4 => taggedOperand .startP .startT (argField w)
  | 5 => taggedOperand .readP .readT (argField w)
  | 6 => taggedOperand .convertP .convertT (argField w)
  | 7 => taggedOperand .setwaterFresh .setwaterSalt (argField w)
  | 8 => noOperand .getreading (argField w)
  | _ => .reject .illegalOpcode

/-- The control bytes of 30_encoding.md R65 and R66: `0x1E`, `0100rrrr`, `0101rrrr`. -/
def decodeCtrl (b : Byte) : Decoded :=
  if b = 0x1E#8 then .instr .devReset
  else match opField b with
    | 4 => .instr (.devConvD1 (argField b))
    | 5 => .instr (.devConvD2 (argField b))
    | _ => .reject .notAControlByte

/-- The register addresses of 30_encoding.md R67 and R68: `1010iii0` and `0x00`. -/
def decodeReg (a : Byte) : Decoded :=
  if a = 0x00#8 then .instr .devAdcRead
  else if opField a = 0xA ∧ a.getLsbD 0 = false then .instr (.devPromRead (a.extractLsb' 1 3).toNat)
  else .reject .notARegisterAddress

/-- The decoder, by format. Total on every byte of every format. -/
def decode : Encoded → Decoded
  | .cmd w => decodeCmd w
  | .ctrl b => decodeCtrl b
  | .reg a => decodeReg a

/-- The encoder: each row's word under its format (30_encoding.md R61, R65 to R68). -/
def encode : Instr → Encoded
  | .init => .cmd 0x10#8
  | .reset => .cmd 0x20#8
  | .loadcal => .cmd 0x30#8
  | .startP => .cmd 0x41#8
  | .startT => .cmd 0x42#8
  | .readP => .cmd 0x51#8
  | .readT => .cmd 0x52#8
  | .convertP => .cmd 0x61#8
  | .convertT => .cmd 0x62#8
  | .setwaterFresh => .cmd 0x71#8
  | .setwaterSalt => .cmd 0x72#8
  | .getreading => .cmd 0x80#8
  | .devReset => .ctrl 0x1E#8
  | .devConvD1 r => .ctrl (BitVec.ofNat 8 (0x40 + r))
  | .devConvD2 r => .ctrl (BitVec.ofNat 8 (0x50 + r))
  | .devPromRead k => .reg (BitVec.ofNat 8 (0xA0 + 2 * k))
  | .devAdcRead => .reg 0x00#8

/-- The word without its format. -/
def Encoded.word : Encoded → Byte
  | .cmd w => w
  | .ctrl b => b
  | .reg a => a

/-- The host command rows, as opposed to the device-side rows (30_encoding.md section 2). -/
def Instr.isCommand : Instr → Bool
  | .init | .reset | .loadcal | .startP | .startT | .readP | .readT | .convertP | .convertT => true
  | .setwaterFresh | .setwaterSalt | .getreading => true
  | .devReset | .devConvD1 _ | .devConvD2 _ | .devPromRead _ | .devAdcRead => false

/-- A bare byte of the opcode table under the format of the first of its rows that matches: a legal host command word
is a command; any other byte is tried as a control byte and then as a register address; a byte that is none of these
is an (illegal) command word. DESIGN CHOICE (log 17): the table tells the rows of different formats apart by their
format, which a bare byte does not carry. -/
def tableEncoded (w : Byte) : Encoded :=
  match decodeCmd w, decodeCtrl w, decodeReg w with
  | .instr _, _, _ => .cmd w
  | .reject _, .instr _, _ => .ctrl w
  | .reject _, .reject _, .instr _ => .reg w
  | .reject _, .reject _, .reject _ => .cmd w

/-- The instruction the decoder reads from the word `w` of `nbits` bits of the opcode table; every row is one byte,
so a word with a bit above bit 7 is none. -/
def decodeTableWord (nbits w : Nat) : Option Instr :=
  if w % 2 ^ nbits < 256 then (decode (tableEncoded (BitVec.ofNat 8 (w % 2 ^ nbits)))).instr? else none

/-! ### Scripts (30_encoding.md R70 to R72) -/

/-- The line of a script that stands for each host command (30_encoding.md R70). -/
def scriptLines : List (String × Instr) :=
  [("INIT", .init), ("RESET", .reset), ("LOADCAL", .loadcal),
   ("START P", .startP), ("START T", .startT), ("READ P", .readP), ("READ T", .readT),
   ("CONVERT P", .convertP), ("CONVERT T", .convertT),
   ("SETWATER FRESH", .setwaterFresh), ("SETWATER SALT", .setwaterSalt), ("GETREADING", .getreading)]

/-- The document's own names of the same operations (30_encoding.md R61, R71, R72). Their operand is written in the
parentheses with R70's letters: DEDUCED (log 14). -/
def scriptAliases : List (String × Instr) :=
  [("Initialize()", .init), ("Reset()", .reset), ("LoadCalibration()", .loadcal), ("LoadAndValidate()", .loadcal),
   ("StartConversion(P)", .startP), ("StartConversion(T)", .startT),
   ("ReadConversionResult(P)", .readP), ("ReadConversionResult(T)", .readT),
   ("ReadResult(P)", .readP), ("ReadResult(T)", .readT), ("Convert(P)", .convertP), ("Convert(T)", .convertT),
   ("SetWaterType(FRESH)", .setwaterFresh), ("SetWaterType(SALT)", .setwaterSalt),
   ("GetCompensatedReading()", .getreading)]

/-- A comment line: `# ...` (30_encoding.md R70). -/
def isComment (line : List Char) : Bool := line.head? == some '#'

/-- One line of a script: nothing for a comment, the command otherwise, none for a line that is neither. -/
def assembleLine (line : String) : Option (List Instr) :=
  if isComment line.toList then some []
  else ((scriptLines ++ scriptAliases).lookup line).map (fun i => [i])

/-- The encoding of a program: the command words of its lines, one byte a line, in order (30_encoding.md R70). -/
def assemble : List String → Option (List Byte)
  | [] => some []
  | l :: ls =>
    match assembleLine l, assemble ls with
    | some is, some bs => some (is.map (fun i => (encode i).word) ++ bs)
    | _, _ => none

end Sys2Proof
end

