-- ==== Sys2Proof/Machine/State.lean ====
section
/-! DEFINITION. The state of the core (10_state.md R20), the events it performs (20_memory.md R53), the reasons a step
can stop, and the state after power-on reset (10_state.md R38). -/

namespace Sys2Proof.Machine

/-- The conversion-cycle state PHASE (10_state.md R28). Its numeric codes are `Phase.code` in Flags.lean; the codes 6
and 7 are never produced and have no name. -/
inductive Phase where
  | idle
  | started
  | settling
  | resultReady
  | bothReady
  | compensated
deriving DecidableEq, Repr, Inhabited

/-- The contents of RESULT (10_state.md R32, 60_exceptions.md R180). Its numeric codes are `ResultCode.code` in
Flags.lean; the codes 5, 6 and 7 never occur and have no name. -/
inductive ResultCode where
  | ok
  | transportError
  | integrityError
  | usageError
  | illegalCommand
deriving DecidableEq, Repr, Inhabited

/-- What a bus write was answered (20_memory.md R53). -/
inductive WriteAnswer where
  | ok
  | err (e : TErr)
deriving DecidableEq, Repr, Inhabited

/-- What a bus read was answered (20_memory.md R53). -/
inductive ReadAnswer where
  | ok (bytes : List Byte)
  | err (e : TErr)
deriving DecidableEq, Repr, Inhabited

/-- Everything the core does outside itself, with its answer (20_memory.md R53): `W(dev, b)`, `R(dev, reg, n)` and
`Delay(T)`, durations in microseconds (log 8). -/
inductive Event where
  | write (dev : Byte) (b : Byte) (ans : WriteAnswer)
  | read  (dev : Byte) (reg : Byte) (n : Nat) (ans : ReadAnswer)
  | delay (us : Nat)
deriving DecidableEq, Repr, Inhabited

/-- A device-side word of the opcode table, by its format: a control byte (BUS_CTRL) or a register address
(BUS_REG). -/
inductive BusWord where
  | ctrl (b : Byte)
  | reg  (a : Byte)
deriving DecidableEq, Repr, Inhabited

/-- Why the machine stops with a fault. Every error the spec describes is a completion code and no fault. -/
inductive Fault where
  /-- Raised by a device-side word that is none the core puts on the bus (20_memory.md R47, R50: "no behaviour is
  defined for one"). No command reaches it. Safe (log 15). -/
  | undefinedBusAccess
deriving DecidableEq, Repr

/-- Why the machine gives an instruction no meaning. -/
inductive Refusal where
  /-- An instruction without a meaning yet, by its mnemonic; no arm of `exec` answers it. Safe. -/
  | notModelled (mnemonic : String)
  /-- Raised by a conversion byte whose resolution addend is outside `0..15` (30_encoding.md R66: "for RES outside
  that range ... this spec defines nothing"). No decoded word holds one. Safe (log 15). -/
  | parameterOutOfDomain
deriving DecidableEq, Repr

/-- The whole state: the registers of 10_state.md R20, then the model's own fields (INVENTORY.md, State). -/
@[ext]
structure State where
  /-- `C[0..7]`, the CalibrationSet (R21). -/
  c : Vector Word16 8
  /-- CAL_LOADED (R22). -/
  calLoaded : Bool
  /-- CRC_OK (R23). -/
  crcOk : Bool
  /-- REM (R24). -/
  rem : Word16
  /-- CRC_READ (R24). -/
  crcRead : Nibble
  /-- CRC_CALC (R24). -/
  crcCalc : Nibble
  /-- D1 (R25). -/
  d1 : Word24
  /-- D2 (R25). -/
  d2 : Word24
  /-- D1V (R26). -/
  d1v : Bool
  /-- D2V (R26). -/
  d2v : Bool
  /-- WATER (R27). -/
  water : WaterMode
  /-- PHASE (R28). -/
  phase : Phase
  /-- CH (R29). -/
  ch : Channel
  /-- FRESH_P (R30). -/
  freshP : Bool
  /-- FRESH_T (R30). -/
  freshT : Bool
  /-- TEMP2 (R31). -/
  temp2 : Word32
  /-- P (R31). -/
  p : Word32
  /-- DEPTH_E10 (R31). -/
  depthE10 : Word64
  /-- OUT_VALID (R31). -/
  outValid : Bool
  /-- RESULT (R32). -/
  result : ResultCode
  /-- TERR (R32). -/
  terr : TErr
  /-- The model's own: a LOADCAL has read all eight words since POR, the condition under which R20 calls REM,
  CRC_READ and CRC_CALC valid (log 10). -/
  crcRun : Bool
  /-- The model's own: how many words the most recent LOADCAL has read, the words `C[0..i-1]` that
  93_implementation_defined.md U5 calls specified although CAL_LOADED is 0 (log 10). -/
  wordsRead : Nat
  /-- The model's own: the trace of 20_memory.md R53, oldest event first (log 18). -/
  trace : List Event
  /-- The model's own: how many bus primitives were called, the argument of the free oracle (log 2). -/
  calls : Nat
  /-- The model's own: the answers the environment has fixed for the next bus calls, next first (log 2). -/
  answers : List BusAnswer
  /-- The model's own: the command words the host will present, next first (log 5). -/
  script : List Byte
  /-- The model's own: a device-side word to be performed by itself; no command sets it (log 6). -/
  busWord : Option BusWord
deriving DecidableEq, Repr

/-- The state right after power-on reset (10_state.md R38, 70_reset_and_hazards.md R210). The registers R38 leaves
unspecified hold zero: DESIGN CHOICE (log 1), unsafe. -/
def State.reset : State where
  c := Vector.replicate 8 0#16
  calLoaded := false
  crcOk := false
  rem := 0#16
  crcRead := 0#4
  crcCalc := 0#4
  d1 := 0#24
  d2 := 0#24
  d1v := false
  d2v := false
  water := .fresh
  phase := .idle
  ch := .pressure
  freshP := false
  freshT := false
  temp2 := 0#32
  p := 0#32
  depthE10 := 0#64
  outValid := false
  result := .ok
  terr := ⟨0⟩
  crcRun := false
  wordsRead := 0
  trace := []
  calls := 0
  answers := []
  script := []
  busWord := none

end Sys2Proof.Machine
end

