-- ==== Sys2Proof/Machine/Compute.lean ====
section
/-! DEFINITION. The pure function `Compute` (42_compensation.md R132 to R145) over exact integers, line by line, and
the rational quantities its results stand for (42_compensation.md R142 to R144). -/

namespace Sys2Proof.Machine

/-- `tdiv(a, b)`: integer division truncating toward zero (00_scope.md R13). -/
def tdiv (a b : Int) : Int := if 0 ≤ a then a / b else -((-a) / b)

/-- The nine inputs of `Compute` (42_compensation.md R132), each at its unsigned value, less the water mode. -/
structure ComputeInput where
  d1 : Int
  d2 : Int
  c1 : Int
  c2 : Int
  c3 : Int
  c4 : Int
  c5 : Int
  c6 : Int
deriving DecidableEq, Repr

/-- L1 (42_compensation.md R133): the difference between actual and reference temperature. -/
def dTOf (x : ComputeInput) : Int := x.d2 - x.c5 * 2 ^ 8

/-- L2 (42_compensation.md R134): the first-order temperature. -/
def tempOf (x : ComputeInput) : Int := 2000 + tdiv (dTOf x * x.c6) (2 ^ 23)

/-- L3 (42_compensation.md R135): the pressure offset. -/
def offOf (x : ComputeInput) : Int := x.c2 * 2 ^ 16 + tdiv (x.c4 * dTOf x) (2 ^ 7)

/-- L4 (42_compensation.md R136): the pressure sensitivity. -/
def sensOf (x : ComputeInput) : Int := x.c1 * 2 ^ 15 + tdiv (x.c3 * dTOf x) (2 ^ 8)

/-- `Ti` of L6 and L13 (42_compensation.md R137, R139). -/
def tiOf (temp dT : Int) : Int :=
  if temp < 2000 then tdiv (3 * dT * dT) (2 ^ 33) else tdiv (7 * dT * dT) (2 ^ 37)

/-- `OFFi` of L7, L10 and L14 (42_compensation.md R137 to R139). -/
def offiOf (temp : Int) : Int :=
  if temp < 2000 then
    tdiv (3 * (temp - 2000) ^ 2) 2 + (if temp < -1500 then 7 * (temp + 1500) ^ 2 else 0)
  else tdiv ((temp - 2000) ^ 2) 16

/-- `SENSi` of L8, L11 and L15 (42_compensation.md R137 to R139). -/
def sensiOf (temp : Int) : Int :=
  if temp < 2000 then
    tdiv (5 * (temp - 2000) ^ 2) 8 + (if temp < -1500 then 4 * (temp + 1500) ^ 2 else 0)
  else 0

/-- `OFF2` of L16 (42_compensation.md R140). -/
def off2Of (x : ComputeInput) : Int := offOf x - offiOf (tempOf x)

/-- `SENS2` of L17 (42_compensation.md R140). -/
def sens2Of (x : ComputeInput) : Int := sensOf x - sensiOf (tempOf x)

/-- `TEMP2` of L18 (42_compensation.md R140). -/
def temp2Of (x : ComputeInput) : Int := tempOf x - tiOf (tempOf x) (dTOf x)

/-- `P` of L19 (42_compensation.md R141): two truncating divisions, the inner one first. -/
def pOf (x : ComputeInput) : Int := tdiv (tdiv (x.d1 * sens2Of x) (2 ^ 21) - off2Of x) (2 ^ 15)

/-- `KNUM` of L20 (42_compensation.md R145). -/
def knum : WaterMode → Int
  | .fresh => 1019716
  | .salt => 994500

/-- `DEPTH_E10` of L21 from the pressure (42_compensation.md R145). -/
def depthOf (p : Int) (w : WaterMode) : Int := (10 * p - 101325) * knum w

/-- The CompensatedReading: `(TEMP2, P, DEPTH_E10)` (42_compensation.md R132). -/
structure Reading where
  temp2 : Int
  p : Int
  depthE10 : Int
deriving DecidableEq, Repr

/-- `Compute` (42_compensation.md R132). -/
def compute (x : ComputeInput) (w : WaterMode) : Reading where
  temp2 := temp2Of x
  p := pOf x
  depthE10 := depthOf (pOf x) w

/-- The inputs GETREADING passes (42_compensation.md R131, R155): the samples and `C[1..6]` at their unsigned
values. -/
def computeInput (s : State) : ComputeInput where
  d1 := s.d1.toNat
  d2 := s.d2.toNat
  c1 := s.c[1].toNat
  c2 := s.c[2].toNat
  c3 := s.c[3].toNat
  c4 := s.c[4].toNat
  c5 := s.c[5].toNat
  c6 := s.c[6].toNat

/-- `temperature_c` as the exact rational (42_compensation.md R142). -/
def temperatureC (s : State) : Rat := (s.temp2.toInt : Rat) / 100

/-- `pressure_mbar` as the exact rational (42_compensation.md R143). -/
def pressureMbar (s : State) : Rat := (s.p.toInt : Rat) / 10

/-- The density constant `K` (42_compensation.md R144). -/
def kFactor : WaterMode → Rat
  | .fresh => 1019716 / 1000000
  | .salt => 9945 / 10000

/-- `depth_m` of a pressure in millibar, as the exact rational (42_compensation.md R144). -/
def depthMetres (mbar : Rat) (w : WaterMode) : Rat := (mbar - 101325 / 100) * kFactor w / 100

end Sys2Proof.Machine
end

