-- ==== Sys2Proof/Machine/Crc.lean ====
section
/-! DEFINITION. The CRC-4 of the calibration words (40_calibration_crc.md R84 to R88, R91). -/

namespace Sys2Proof.Machine

/-- One bit-step (40_calibration_crc.md R87): the test is of bit 15 before the shift, and the shift is `mod 2^16`. -/
def crcBitStep (rem : Word16) : Word16 :=
  if rem.getLsbD 15 then (rem <<< 1) ^^^ 0x3000#16 else rem <<< 1

/-- `n` bit-steps. -/
def crcBitSteps : Nat → Word16 → Word16
  | 0, rem => rem
  | n + 1, rem => crcBitSteps n (crcBitStep rem)

/-- One half-step (40_calibration_crc.md R86): the byte is XORed into the low byte, then eight bit-steps. -/
def crcHalfStep (rem : Word16) (b : Byte) : Word16 := crcBitSteps 8 (rem ^^^ b.setWidth 16)

/-- The two bytes of a word in the order the CRC consumes them, high byte first (40_calibration_crc.md R85). -/
def wordBytes (w : Word16) : List Byte := [w.extractLsb' 8 8, w.extractLsb' 0 8]

/-- The message `m` of 40_calibration_crc.md R84: the words, with the low nibble of word 7 masked to zero. -/
def crcMessage (ws : Vector Word16 8) : List Word16 :=
  [ws[0], ws[1], ws[2], ws[3], ws[4], ws[5], ws[6], ws[7] &&& 0xFFF0#16]

/-- The byte stream `B[0..15]` (40_calibration_crc.md R85). -/
def crcStream (ws : Vector Word16 8) : List Byte := (crcMessage ws).flatMap wordBytes

/-- The remainder after the sixteen half-steps, from `0x0000` (40_calibration_crc.md R86). -/
def crcRemainder (ws : Vector Word16 8) : Word16 := (crcStream ws).foldl crcHalfStep 0x0000#16

/-- `CRC4`: bits 15 to 12 of the remainder (40_calibration_crc.md R88, R91). -/
def crc4 (ws : Vector Word16 8) : Nibble := (crcRemainder ws).extractLsb' 12 4

/-- The nibble stored in word 7, captured before masking (40_calibration_crc.md R84). -/
def storedNibble (ws : Vector Word16 8) : Nibble := ws[7].extractLsb' 0 4

/-- LOADCAL's verdict (40_calibration_crc.md R89, R91). -/
def crcMatches (ws : Vector Word16 8) : Bool := crc4 ws == storedNibble ws

end Sys2Proof.Machine
end

