-- ==== Sys2Proof/Machine/Flags.lean ====
section
/-! DEFINITION. The numeric codes of the enumerated registers, the flag computations of the sequencer, and the two
status words of the host read-out map (10_state.md R34, R35). -/

namespace Sys2Proof.Machine

/-- The encoding of PHASE (10_state.md R28). -/
def Phase.code : Phase → BitVec 3
  | .idle => 0
  | .started => 1
  | .settling => 2
  | .resultReady => 3
  | .bothReady => 4
  | .compensated => 5

/-- The encoding of RESULT (60_exceptions.md R180, 30_encoding.md R73). -/
def ResultCode.code : ResultCode → BitVec 3
  | .ok => 0
  | .transportError => 1
  | .integrityError => 2
  | .usageError => 3
  | .illegalCommand => 4

/-- A flag as one bit. -/
def flagBit (b : Bool) : BitVec 1 := if b then 1#1 else 0#1

/-- The encoding of CH, `chbit(ch)` (10_state.md R29, 41_conversion_sequencer.md R104). -/
def channelBit : Channel → BitVec 1
  | .pressure => 0#1
  | .temperature => 1#1

/-- The encoding of WATER (10_state.md R27). -/
def waterBit : WaterMode → BitVec 1
  | .fresh => 0#1
  | .salt => 1#1

/-- The STATUS word (10_state.md R35): bit 15 reserved and 0, then RESULT, OUT_VALID, PHASE, CH, FRESH_T, FRESH_P,
D2V, D1V, WATER, CRC_OK, CAL_LOADED down to bit 0. -/
def statusWord (s : State) : Word16 :=
  (0#1 : BitVec 1) ++ s.result.code ++ flagBit s.outValid ++ s.phase.code ++ channelBit s.ch
    ++ flagBit s.freshT ++ flagBit s.freshP ++ flagBit s.d2v ++ flagBit s.d1v
    ++ waterBit s.water ++ flagBit s.crcOk ++ flagBit s.calLoaded

/-- The CRCSTAT word (10_state.md R34): `[3:0] = CRC_CALC`, `[7:4] = CRC_READ`, `[15:8] = 0`. -/
def crcStatWord (s : State) : Word16 := (0#8 : BitVec 8) ++ s.crcRead ++ s.crcCalc

/-- A new cycle begins with a START accepted in BOTH_READY or COMPENSATED (10_state.md R30,
41_conversion_sequencer.md R104). -/
def startsNewCycle (ph : Phase) : Bool := ph == .bothReady || ph == .compensated

/-- READ of channel `ch` is permitted: `PHASE = RESULT_READY` and `CH = chbit(ch)`
(41_conversion_sequencer.md R105). -/
def readPermitted (ch : Channel) (s : State) : Bool := s.phase == .resultReady && s.ch == ch

/-- GETREADING is permitted: `CAL_LOADED = 1` and `D1V = 1` and `D2V = 1` (42_compensation.md R131). -/
def readingPermitted (s : State) : Bool := s.calLoaded && s.d1v && s.d2v

/-- The phase a successful READ leaves, from the two fresh flags after it (41_conversion_sequencer.md R105). -/
def phaseAfterRead (freshP freshT : Bool) : Phase := if freshP && freshT then .bothReady else .idle

/-- The phase a GETREADING that completed OK leaves (42_compensation.md R131). -/
def phaseAfterReading (ph : Phase) : Phase := if ph = .bothReady then .compensated else ph

end Sys2Proof.Machine
end

