-- ==== Sys2Proof/Machine/Operands.lean ====
section
/-! DEFINITION. The operand forms: the bytes and addresses the core puts on the bus (20_memory.md R46, R47,
30_encoding.md R65 to R69) and the big-endian assembly of the bytes it receives (20_memory.md R48, R49). -/

namespace Sys2Proof.Machine

/-- The reset control byte (30_encoding.md R65). -/
def resetByte : Byte := 0x1E#8

/-- `off(ch)`: the channel offset of a conversion byte (30_encoding.md R66). -/
def channelOffset : Channel → Nat
  | .pressure => 0x00
  | .temperature => 0x10

/-- `convbyte(ch) = 0x40 + RES + off(ch)` (30_encoding.md R66). -/
def convByte (res : Nat) (ch : Channel) : Byte := BitVec.ofNat 8 (0x40 + res + channelOffset ch)

/-- The register address of PROM word `k`: `0xA0 + 2*k` (30_encoding.md R67). -/
def promAddr (k : Nat) : Byte := BitVec.ofNat 8 (0xA0 + 2 * k)

/-- The ADC read register (30_encoding.md R68). -/
def adcReg : Byte := 0x00#8

/-- The call that reads PROM word `k`: two bytes (20_memory.md R46). -/
def promCall (k : Nat) : BusCall := .read Config.devAddr (promAddr k) 2

/-- The call that reads the ADC result: three bytes (20_memory.md R46). -/
def adcCall : BusCall := .read Config.devAddr adcReg 3

/-- The call that starts a conversion of channel `ch` at the core's resolution (41_conversion_sequencer.md R104). -/
def startCall (ch : Channel) : BusCall := .write Config.devAddr (convByte Config.res ch)

/-- The call that resets the device (41_conversion_sequencer.md R103). -/
def resetCall : BusCall := .write Config.devAddr resetByte

/-- A PROM word from its two bytes, high byte first (20_memory.md R48). -/
def be16 (hi lo : Byte) : Word16 := (hi.setWidth 16 <<< 8) ||| lo.setWidth 16

/-- An ADC result from its three bytes, most significant first (20_memory.md R49). -/
def be24 (b0 b1 b2 : Byte) : Word24 := (b0.setWidth 24 <<< 16) ||| (b1.setWidth 24 <<< 8) ||| b2.setWidth 24

end Sys2Proof.Machine
end

