-- ==== Sys2Proof/Machine/Ops.lean ====
section
/-! DEFINITION. The shared operations: the three external primitives (00_scope.md R11, R12), command completion
(00_scope.md R14, which is what this core has in place of taking an exception), the register updates of the three
units, power-on reset, the host read port, and the fetch of the next word. -/

namespace Sys2Proof.Machine

/-! ### Bus primitives -/

/-- The answer the `k`-th bus call from here will get, if that call is `call` (20_memory.md R57): the one the
environment has fixed, or the oracle's (log 2). -/
def State.answerAt (s : State) (k : Nat) (call : BusCall) : BusAnswer :=
  match s.answers[k]? with
  | some a => a
  | none => Config.oracle (s.calls + k) call

/-- What the trace records of an answer to a write (20_memory.md R53). -/
def writeAnswer : BusAnswer → WriteAnswer
  | .ok _ _ _ => .ok
  | .err e => .err e

/-- What the trace records of an answer to a read of `n` bytes: exactly `n` of them (00_scope.md R11). -/
def readAnswer (n : Nat) : BusAnswer → ReadAnswer
  | .ok b0 b1 b2 => .ok ([b0, b1, b2].take n)
  | .err e => .err e

/-- The event of a call and its answer (20_memory.md R53). -/
def busEvent (call : BusCall) (a : BusAnswer) : Event :=
  match call with
  | .write dev b => .write dev b (writeAnswer a)
  | .read dev reg n => .read dev reg n (readAnswer n a)

/-- One bus primitive (00_scope.md R11): the call's event, with its answer, is added to the trace, and the answer is
used up. The answer itself is `s.answerAt 0 call`. -/
def afterCall (call : BusCall) (s : State) : State :=
  { s with
    trace := s.trace ++ [busEvent call (s.answerAt 0 call)]
    calls := s.calls + 1
    answers := s.answers.tail }

/-- `Delay(T)` (00_scope.md R12): an event, and nothing else. -/
def delay (us : Nat) (s : State) : State := { s with trace := s.trace ++ [.delay us] }

/-! ### Completion -/

/-- The completion codes, with the transport's error (60_exceptions.md R180). -/
inductive Completion where
  | ok
  | transportError (e : TErr)
  | integrityError
  | usageError
  | illegalCommand
deriving DecidableEq, Repr, Inhabited

/-- The code written to RESULT (60_exceptions.md R180). -/
def Completion.resultCode : Completion → ResultCode
  | .ok => .ok
  | .transportError _ => .transportError
  | .integrityError => .integrityError
  | .usageError => .usageError
  | .illegalCommand => .illegalCommand

/-- The error written to TERR: only a TransportError writes it (10_state.md R32, 60_exceptions.md R186). -/
def Completion.errorOr (old : TErr) : Completion → TErr
  | .transportError e => e
  | .ok | .integrityError | .usageError | .illegalCommand => old

/-- `complete <code>` (00_scope.md R14, 60_exceptions.md R190): the code goes to RESULT, a transport error to TERR,
and nothing else changes. The core is then at a command boundary; there is no return (60_exceptions.md R192). -/
def complete (k : Completion) (s : State) : State :=
  { s with result := k.resultCode, terr := k.errorOr s.terr }

/-- A command up to, but not including, its "complete": the state so far and the code it would complete with
(41_conversion_sequencer.md R106, 43_initialize.md R170). -/
abbrev Body := State → State × Completion

/-- Perform one body and, if it would complete OK, the next (41_conversion_sequencer.md R106,
43_initialize.md R170). -/
def Body.thenIfOk (a b : Body) : Body := fun s =>
  match a s with
  | (t, .ok) => b t
  | (t, .transportError e) => (t, .transportError e)
  | (t, .integrityError) => (t, .integrityError)
  | (t, .usageError) => (t, .usageError)
  | (t, .illegalCommand) => (t, .illegalCommand)

/-- A whole command: its body, then its completion. Always a next state (00_scope.md R14). -/
def runCommand (b : Body) (s : State) : Host.Outcome State Fault Refusal :=
  .next (complete (b s).2 (b s).1)

/-! ### Register updates of the Calibration Store -/

/-- Invalidate first (40_calibration_crc.md R81). No word has been read yet. -/
def invalidateCal (s : State) : State := { s with calLoaded := false, crcOk := false, wordsRead := 0 }

/-- `C[k] <- v` (40_calibration_crc.md R82). The words come in ascending order, so `k + 1` of them have been read. -/
def setC (k : Nat) (v : Word16) (s : State) : State := { s with c := s.c.setIfInBounds k v, wordsRead := k + 1 }

/-- Read PROM words `k`, `k + 1`, ..., `n` of them, storing each as it arrives; the first error ends it
(40_calibration_crc.md R82, R83). -/
def loadWords : Nat → Nat → State → State × Option TErr
  | 0, _, s => (s, none)
  | n + 1, k, s =>
    match s.answerAt 0 (promCall k) with
    | .err e => (afterCall (promCall k) s, some e)
    | .ok hi lo _ => loadWords n (k + 1) (setC k (be16 hi lo) (afterCall (promCall k) s))

/-- The CRC working registers and the verdict, after the eighth word (40_calibration_crc.md R84 to R89). -/
def recordCrc (s : State) : State :=
  { s with
    crcRead := storedNibble s.c
    rem := crcRemainder s.c
    crcCalc := crc4 s.c
    calLoaded := true
    crcOk := crcMatches s.c
    crcRun := true }

/-! ### Register updates of the Conversion Sequencer -/

/-- What RESET writes once its control byte is acknowledged (41_conversion_sequencer.md R103). -/
def cancelCycle (s : State) : State := { s with phase := .idle, freshP := false, freshT := false }

/-- What START writes between the acknowledgement and the settling delay (41_conversion_sequencer.md R104): the
cycle's restart, CH, and PHASE through STARTED. The state it gives is in SETTLING. -/
def beginConversion (ch : Channel) (s : State) : State :=
  let restarted := { s with
    freshP := if startsNewCycle s.phase then false else s.freshP
    freshT := if startsNewCycle s.phase then false else s.freshT
    ch := ch }
  let started := { restarted with phase := .started }
  { started with phase := .settling }

/-- The settling delay and its end (41_conversion_sequencer.md R104). -/
def settle (s : State) : State := { delay Config.tConv s with phase := .resultReady }

/-- What READ writes once it has its three bytes (41_conversion_sequencer.md R105): the sample of its channel, its
valid and fresh flags, and the phase. -/
def storeSample (ch : Channel) (v : Word24) (s : State) : State :=
  { s with
    d1 := if ch = .pressure then v else s.d1
    d1v := if ch = .pressure then true else s.d1v
    freshP := if ch = .pressure then true else s.freshP
    d2 := if ch = .temperature then v else s.d2
    d2v := if ch = .temperature then true else s.d2v
    freshT := if ch = .temperature then true else s.freshT
    phase := phaseAfterRead (if ch = .pressure then true else s.freshP) (if ch = .temperature then true else s.freshT) }

/-! ### Register updates of the Compensation Engine -/

/-- `WATER <- m` (42_compensation.md R130). -/
def setWater (m : WaterMode) (s : State) : State := { s with water := m }

/-- What a permitted GETREADING writes (42_compensation.md R131): the three outputs together, OUT_VALID, and the
phase. The registers hold the exact integers in two's complement (42_compensation.md R149). -/
def storeReading (r : Reading) (s : State) : State :=
  { s with
    temp2 := BitVec.ofInt 32 r.temp2
    p := BitVec.ofInt 32 r.p
    depthE10 := BitVec.ofInt 64 r.depthE10
    outValid := true
    phase := phaseAfterReading s.phase }

/-! ### Power-on reset and the host read port -/

/-- Power-on reset applied to a running core (70_reset_and_hazards.md R210): every register as in
`State.reset`, no event performed; the environment's own fields are not the core's and stay (log 13). -/
def powerOnReset (s : State) : State :=
  { State.reset with trace := s.trace, calls := s.calls, answers := s.answers, script := s.script }

/-- What the read port returns (10_state.md R34): a word of the register's width, the error detail, or the 0 of an
unmapped number. -/
inductive ReadOut where
  | w16 (v : Word16)
  | w24 (v : Word24)
  | w32 (v : Word32)
  | w64 (v : Word64)
  | error (e : TErr)
  | unmapped
deriving DecidableEq, Repr

/-- The number an answer of the read port stands for; an unmapped register number reads as 0 (10_state.md R34). -/
def ReadOut.value : ReadOut → Nat
  | .w16 v => v.toNat
  | .w24 v => v.toNat
  | .w32 v => v.toNat
  | .w64 v => v.toNat
  | .error e => e.code
  | .unmapped => 0

/-- A register's contents while it is valid, a free value of its width otherwise (10_state.md R34,
93_implementation_defined.md U5; log 10). -/
def portWord (w : Nat) (valid : Bool) (v : BitVec w) (k : Nat) (n : Byte) : BitVec w :=
  if valid then v else (Config.unspecifiedRead k n).setWidth w

/-- The port returns `C[j]` (10_state.md R20, R34): CAL_LOADED is 1, or `j` is among the words that the most recent
LOADCAL read before it was aborted (93_implementation_defined.md U5, 40_calibration_crc.md R83). -/
def wordReadable (j : Nat) (s : State) : Bool := s.calLoaded || decide (j < s.wordsRead)

/-- The host read port at a command boundary (10_state.md R34): register `n`, at the host's `k`-th read. It has no
side effect. The validity conditions are those of R20, and of U5 for the words of an aborted LOADCAL. -/
def hostRead (k : Nat) (n : Byte) (s : State) : ReadOut :=
  match n.toNat with
  | 0x00 => .w16 (statusWord s)
  | 0x01 => .w16 (portWord 16 s.crcRun (crcStatWord s) k n &&& 0x00FF#16)
  | 0x02 => .w16 (portWord 16 s.crcRun s.rem k n)
  | 0x03 => .error (if s.result = .transportError then s.terr else Config.unspecifiedError k)
  | 0x08 => .w24 (portWord 24 s.d1v s.d1 k n)
  | 0x09 => .w24 (portWord 24 s.d2v s.d2 k n)
  | 0x0A => .w32 (portWord 32 s.outValid s.temp2 k n)
  | 0x0B => .w32 (portWord 32 s.outValid s.p k n)
  | 0x0C => .w64 (portWord 64 s.outValid s.depthE10 k n)
  | 0x10 => .w16 (portWord 16 (wordReadable 0 s) s.c[0] k n)
  | 0x11 => .w16 (portWord 16 (wordReadable 1 s) s.c[1] k n)
  | 0x12 => .w16 (portWord 16 (wordReadable 2 s) s.c[2] k n)
  | 0x13 => .w16 (portWord 16 (wordReadable 3 s) s.c[3] k n)
  | 0x14 => .w16 (portWord 16 (wordReadable 4 s) s.c[4] k n)
  | 0x15 => .w16 (portWord 16 (wordReadable 5 s) s.c[5] k n)
  | 0x16 => .w16 (portWord 16 (wordReadable 6 s) s.c[6] k n)
  | 0x17 => .w16 (portWord 16 (wordReadable 7 s) s.c[7] k n)
  | _ => .unmapped

/-! ### The command interface -/

/-- A device-side word under its format. -/
def BusWord.encoded : BusWord → Encoded
  | .ctrl b => .ctrl b
  | .reg a => .reg a

/-- The next word and the state with it taken: a device-side word that stands by itself, else the next command word
the host presents, else none (30_encoding.md R60; log 5, log 6). -/
def fetch (s : State) : Option (Encoded × State) :=
  match s.busWord, s.script with
  | some b, _ => some (b.encoded, { s with busWord := none })
  | none, w :: ws => some (.cmd w, { s with script := ws })
  | none, [] => none

/-- An illegal command word completes IllegalCommand (30_encoding.md R63, 60_exceptions.md R184). -/
def illegalCommandBody : Body := fun s => (s, .illegalCommand)

/-- A word its format's decoder rejects: an illegal command word completes IllegalCommand
(60_exceptions.md R184); a device-side word the core never puts on the bus has no behaviour
(20_memory.md R47, R50; log 15). -/
def rejectWord (e : Encoded) (s : State) : Host.Outcome State Fault Refusal :=
  match e with
  | .cmd _ => runCommand illegalCommandBody s
  | .ctrl _ => .fault .undefinedBusAccess
  | .reg _ => .fault .undefinedBusAccess

/-- Present a word to the core, so that it is the next one fetched (log 5, log 6). -/
def present (e : Encoded) (s : State) : State :=
  match e with
  | .cmd w => { s with busWord := none, script := w :: s.script.tail }
  | .ctrl b => { s with busWord := some (.ctrl b) }
  | .reg a => { s with busWord := some (.reg a) }

end Sys2Proof.Machine
end

