-- ==== Sys2Proof/Machine/Calibration.lean ====
section
/-! DEFINITION. The Calibration Store: LOADCAL (40_calibration_crc.md R80). -/

namespace Sys2Proof.Machine

/-- LOADCAL up to its completion (40_calibration_crc.md R80): invalidate, eight reads, CRC, verdict. -/
def loadcalBody : Body := fun s =>
  match loadWords 8 0 (invalidateCal s) with
  | (t, some e) => (t, .transportError e)
  | (t, none) => (recordCrc t, if crcMatches t.c then .ok else .integrityError)

/-- LOADCAL (40_calibration_crc.md R80). -/
def execLoadcal (s : State) : Host.Outcome State Fault Refusal := runCommand loadcalBody s

end Sys2Proof.Machine
end

