-- ==== Sys2Proof/Machine/Compensation.lean ====
section
/-! DEFINITION. The Compensation Engine's commands: SETWATER and GETREADING (42_compensation.md R130, R131). -/

namespace Sys2Proof.Machine

/-- SETWATER up to its completion (42_compensation.md R130). -/
def setwaterBody (m : WaterMode) : Body := fun s => (setWater m s, .ok)

/-- GETREADING up to its completion (42_compensation.md R131). -/
def getreadingBody : Body := fun s =>
  if readingPermitted s then (storeReading (compute (computeInput s) s.water) s, .ok)
  else (s, .usageError)

/-- SETWATER FRESH (42_compensation.md R130). -/
def execSetwaterFresh (s : State) : Host.Outcome State Fault Refusal := runCommand (setwaterBody .fresh) s

/-- SETWATER SALT (42_compensation.md R130). -/
def execSetwaterSalt (s : State) : Host.Outcome State Fault Refusal := runCommand (setwaterBody .salt) s

/-- GETREADING (42_compensation.md R131). -/
def execGetreading (s : State) : Host.Outcome State Fault Refusal := runCommand getreadingBody s

end Sys2Proof.Machine
end

