-- ==== Sys2Proof/Machine/DeviceWords.lean ====
section
/-! DEFINITION. The five device-side rows of the opcode table (30_encoding.md R65 to R68): each is one bus primitive
to the device, with the event and the answer of 00_scope.md R11 and nothing else. They are no commands, so none writes
RESULT (log 6). -/

namespace Sys2Proof.Machine

/-- The conversion byte of a channel with the resolution addend `r`; outside `0..15` the spec defines nothing
(30_encoding.md R66; log 15). -/
def conversionWord (r : Nat) (ch : Channel) (s : State) : Host.Outcome State Fault Refusal :=
  if ResolutionInDomain r then .next (afterCall (.write Config.devAddr (convByte r ch)) s)
  else .refused .parameterOutOfDomain

/-- DEV_RESET: `BusWrite(DEV_ADDR, 0x1E)` (30_encoding.md R65). -/
def execDevReset (s : State) : Host.Outcome State Fault Refusal := .next (afterCall resetCall s)

/-- DEV_CONV_D1: `BusWrite(DEV_ADDR, 0x40 + r)` (30_encoding.md R66). -/
def execDevConvD1 (r : Nat) (s : State) : Host.Outcome State Fault Refusal := conversionWord r .pressure s

/-- DEV_CONV_D2: `BusWrite(DEV_ADDR, 0x50 + r)` (30_encoding.md R66). -/
def execDevConvD2 (r : Nat) (s : State) : Host.Outcome State Fault Refusal := conversionWord r .temperature s

/-- DEV_PROM_READ: `BusRead(DEV_ADDR, 0xA0 + 2*k, 2)` (30_encoding.md R67); there are eight words, and no behaviour
for another address (20_memory.md R50; log 15). -/
def execDevPromRead (k : Nat) (s : State) : Host.Outcome State Fault Refusal :=
  if PromIndexInDomain k then .next (afterCall (promCall k) s) else .fault .undefinedBusAccess

/-- DEV_ADC_READ: `BusRead(DEV_ADDR, 0x00, 3)` (30_encoding.md R68). -/
def execDevAdcRead (s : State) : Host.Outcome State Fault Refusal := .next (afterCall adcCall s)

end Sys2Proof.Machine
end

