-- ==== Sys2Proof/Machine/Sequencer.lean ====
section
/-! DEFINITION. The Conversion Sequencer: RESET, START, READ, CONVERT (41_conversion_sequencer.md R103 to R107). -/

namespace Sys2Proof.Machine

/-- RESET up to its completion (41_conversion_sequencer.md R103). -/
def resetBody : Body := fun s =>
  match s.answerAt 0 resetCall with
  | .err e => (afterCall resetCall s, .transportError e)
  | .ok _ _ _ => (delay Config.tReset (cancelCycle (afterCall resetCall s)), .ok)

/-- START up to its completion (41_conversion_sequencer.md R104). -/
def startBody (ch : Channel) : Body := fun s =>
  match s.answerAt 0 (startCall ch) with
  | .err e => (afterCall (startCall ch) s, .transportError e)
  | .ok _ _ _ => (settle (beginConversion ch (afterCall (startCall ch) s)), .ok)

/-- READ up to its completion (41_conversion_sequencer.md R105, R107): the permission check comes before any bus
event. -/
def readBody (ch : Channel) : Body := fun s =>
  if readPermitted ch s then
    match s.answerAt 0 adcCall with
    | .err e => (afterCall adcCall s, .transportError e)
    | .ok b0 b1 b2 => (storeSample ch (be24 b0 b1 b2) (afterCall adcCall s), .ok)
  else (s, .usageError)

/-- CONVERT up to its completion (41_conversion_sequencer.md R106): START, then READ if START would complete OK. -/
def convertBody (ch : Channel) : Body := (startBody ch).thenIfOk (readBody ch)

/-- RESET (41_conversion_sequencer.md R103). -/
def execReset (s : State) : Host.Outcome State Fault Refusal := runCommand resetBody s

/-- START P (41_conversion_sequencer.md R104). -/
def execStartP (s : State) : Host.Outcome State Fault Refusal := runCommand (startBody .pressure) s

/-- START T (41_conversion_sequencer.md R104). -/
def execStartT (s : State) : Host.Outcome State Fault Refusal := runCommand (startBody .temperature) s

/-- READ P (41_conversion_sequencer.md R105). -/
def execReadP (s : State) : Host.Outcome State Fault Refusal := runCommand (readBody .pressure) s

/-- READ T (41_conversion_sequencer.md R105). -/
def execReadT (s : State) : Host.Outcome State Fault Refusal := runCommand (readBody .temperature) s

/-- CONVERT P (41_conversion_sequencer.md R106). -/
def execConvertP (s : State) : Host.Outcome State Fault Refusal := runCommand (convertBody .pressure) s

/-- CONVERT T (41_conversion_sequencer.md R106). -/
def execConvertT (s : State) : Host.Outcome State Fault Refusal := runCommand (convertBody .temperature) s

end Sys2Proof.Machine
end

