-- ==== Sys2Proof/Machine/Initialize.lean ====
section
/-! DEFINITION. INIT (43_initialize.md R170). -/

namespace Sys2Proof.Machine

/-- INIT up to its completion (43_initialize.md R170): RESET, then LOADCAL if RESET would complete OK. -/
def initBody : Body := resetBody.thenIfOk loadcalBody

/-- INIT (43_initialize.md R170). -/
def execInit (s : State) : Host.Outcome State Fault Refusal := runCommand initBody s

end Sys2Proof.Machine
end

