-- ==== Sys2Proof/Machine/Dispatch.lean ====
section
/-! DEFINITION. One arm per constructor of `Instr`. -/

namespace Sys2Proof.Machine

def exec (i : Instr) (s : State) : Host.Outcome State Fault Refusal :=
  match i with
  | .init => Sys2Proof.Machine.execInit s
  | .reset => Sys2Proof.Machine.execReset s
  | .loadcal => Sys2Proof.Machine.execLoadcal s
  | .startP => Sys2Proof.Machine.execStartP s
  | .startT => Sys2Proof.Machine.execStartT s
  | .readP => Sys2Proof.Machine.execReadP s
  | .readT => Sys2Proof.Machine.execReadT s
  | .convertP => Sys2Proof.Machine.execConvertP s
  | .convertT => Sys2Proof.Machine.execConvertT s
  | .setwaterFresh => Sys2Proof.Machine.execSetwaterFresh s
  | .setwaterSalt => Sys2Proof.Machine.execSetwaterSalt s
  | .getreading => Sys2Proof.Machine.execGetreading s
  | .devReset => Sys2Proof.Machine.execDevReset s
  | .devConvD1 r => Sys2Proof.Machine.execDevConvD1 r s
  | .devConvD2 r => Sys2Proof.Machine.execDevConvD2 r s
  | .devPromRead k => Sys2Proof.Machine.execDevPromRead k s
  | .devAdcRead => Sys2Proof.Machine.execDevAdcRead s

end Sys2Proof.Machine
end

