-- ==== Sys2Proof/Machine/Step.lean ====
section
/-! DEFINITION. One step: the core takes the next word presented to it, decodes it and executes it to completion
(00_scope.md R14). With no word presented it waits at the command boundary and nothing changes (10_state.md R38;
log 5). -/

namespace Sys2Proof.Machine

/-- One step. An illegal command word is a completion, not a stop (60_exceptions.md R184). -/
def step (s : State) : Host.Outcome State Fault Refusal :=
  match fetch s with
  | none => .next s
  | some (e, t) =>
    match decode e with
    | .instr i => exec i t
    | .reject _ => rejectWord e t

/-- The state with the opcode-table word `w` presented to the core, so that the next step takes it (log 5, log 6). -/
def State.withFetchWord (s : State) (nbits w : Nat) : State :=
  present (tableEncoded (BitVec.ofNat 8 (w % 2 ^ nbits))) s

end Sys2Proof.Machine
end

