-- ==== Sys2Proof/Machine/Compute64.lean ====
section
/-! DEFINITION. `Compute` in signed 64-bit two's-complement arithmetic with wrap-around at every operation: the
implementation 42_compensation.md R148 speaks of. The core does not use it; a statement says that it agrees with
`compute`. -/

namespace Sys2Proof.Machine

/-- A 64-bit constant. -/
def k64 (n : Int) : Word64 := BitVec.ofInt 64 n

/-- L1 to L21 of 42_compensation.md R132 on 64-bit words: `*`, `+`, `-` wrap, `sdiv` truncates toward zero. -/
def compute64 (x : ComputeInput) (w : WaterMode) : Word64 × Word64 × Word64 :=
  let dT := k64 x.d2 - k64 x.c5 * k64 (2 ^ 8)
  let temp := k64 2000 + (dT * k64 x.c6).sdiv (k64 (2 ^ 23))
  let off := k64 x.c2 * k64 (2 ^ 16) + (k64 x.c4 * dT).sdiv (k64 (2 ^ 7))
  let sens := k64 x.c1 * k64 (2 ^ 15) + (k64 x.c3 * dT).sdiv (k64 (2 ^ 8))
  let below := temp - k64 2000
  let deep := temp + k64 1500
  let low := temp.slt (k64 2000)
  let veryLow := temp.slt (k64 (-1500))
  let ti := if low then (k64 3 * dT * dT).sdiv (k64 (2 ^ 33)) else (k64 7 * dT * dT).sdiv (k64 (2 ^ 37))
  let offi :=
    if low then (k64 3 * (below * below)).sdiv (k64 2) + (if veryLow then k64 7 * (deep * deep) else k64 0)
    else (below * below).sdiv (k64 16)
  let sensi :=
    if low then (k64 5 * (below * below)).sdiv (k64 8) + (if veryLow then k64 4 * (deep * deep) else k64 0)
    else k64 0
  let off2 := off - offi
  let sens2 := sens - sensi
  let p := ((k64 x.d1 * sens2).sdiv (k64 (2 ^ 21)) - off2).sdiv (k64 (2 ^ 15))
  (temp - ti, p, (k64 10 * p - k64 101325) * k64 (knum w))

/-- The samples are `u24` and the coefficients `u16` (42_compensation.md R132). -/
abbrev ComputeInput.InRange (x : ComputeInput) : Prop :=
  (0 ≤ x.d1 ∧ x.d1 < 2 ^ 24) ∧ (0 ≤ x.d2 ∧ x.d2 < 2 ^ 24) ∧
  (0 ≤ x.c1 ∧ x.c1 < 2 ^ 16) ∧ (0 ≤ x.c2 ∧ x.c2 < 2 ^ 16) ∧ (0 ≤ x.c3 ∧ x.c3 < 2 ^ 16) ∧
  (0 ≤ x.c4 ∧ x.c4 < 2 ^ 16) ∧ (0 ≤ x.c5 ∧ x.c5 < 2 ^ 16) ∧ (0 ≤ x.c6 ∧ x.c6 < 2 ^ 16)

end Sys2Proof.Machine
end

