-- ==== Sys2Proof/Safety.lean ====
section
/-! DEFINITION. The terms in which statements about the machine are put: the invariants of a command boundary
(10_state.md R39), the verdict a loaded calibration carries, and the timing of the trace. -/

namespace Sys2Proof.Machine

/-! ### Command-boundary invariants -/

/-- 10_state.md R39 (1). -/
abbrev CrcOkNeedsCal (s : State) : Prop := s.crcOk = true → s.calLoaded = true

/-- 10_state.md R39 (2). -/
abbrev FreshNeedsValid (s : State) : Prop := (s.freshP = true → s.d1v = true) ∧ (s.freshT = true → s.d2v = true)

/-- 10_state.md R39 (3): a phase that occurs at a command boundary. -/
abbrev BoundaryPhase (ph : Phase) : Prop :=
  ph = .idle ∨ ph = .resultReady ∨ ph = .bothReady ∨ ph = .compensated

/-- 10_state.md R39 (4) and (5): the two fresh flags and the phase. -/
abbrev PhaseMatchesFresh (s : State) : Prop :=
  ((s.phase = .bothReady ∨ s.phase = .compensated) → s.freshP = true ∧ s.freshT = true) ∧
  ((s.phase = .idle ∨ s.phase = .resultReady) → ¬(s.freshP = true ∧ s.freshT = true))

/-- 10_state.md R39 (6) and (7). -/
abbrev OutputsNeedSamples (s : State) : Prop :=
  (s.phase = .compensated → s.outValid = true) ∧ (s.outValid = true → s.d1v = true ∧ s.d2v = true)

/-- The invariants (1) to (7) of 10_state.md R39. -/
abbrev BoundaryInv (s : State) : Prop :=
  CrcOkNeedsCal s ∧ FreshNeedsValid s ∧ BoundaryPhase s.phase ∧ PhaseMatchesFresh s ∧ OutputsNeedSamples s

/-- 10_state.md R39 (8): from `s` to `t` no valid flag was lost. -/
abbrev KeepsValidFlags (s t : State) : Prop :=
  (s.d1v = true → t.d1v = true) ∧ (s.d2v = true → t.d2v = true) ∧ (s.outValid = true → t.outValid = true)

/-- What a loaded calibration carries (10_state.md R22 to R24): the CRC registers are those of the words in `C`, and
CRC_OK is their verdict. -/
abbrev VerdictInv (s : State) : Prop :=
  s.calLoaded = true →
    s.crcRun = true ∧ s.crcRead = storedNibble s.c ∧ s.rem = crcRemainder s.c ∧ s.crcCalc = crc4 s.c ∧
      s.crcOk = crcMatches s.c

/-! ### Timing of the trace -/

/-- What the device is owed at a point of the trace: nothing, the settling delay of a reset, the settling delay of a
conversion, or the reading of a settled conversion. -/
inductive Owed where
  | nothing
  | resetDelay
  | conversionDelay
  | resultRead
deriving DecidableEq, Repr

/-- One event of a well-timed trace (41_conversion_sequencer.md R103, R104; 70_reset_and_hazards.md R216, R217):
after an acknowledged reset byte the very next event is its delay; after an acknowledged conversion byte the very next
event is its delay; the ADC register is read only when a settled conversion is unread; no delay stands anywhere
else. -/
def Owed.after : Owed → Event → Option Owed
  | .resetDelay, .delay us => if us = Config.tReset then some .nothing else none
  | .conversionDelay, .delay us => if us = Config.tConv then some .resultRead else none
  | .resetDelay, .write _ _ _ => none
  | .resetDelay, .read _ _ _ _ => none
  | .conversionDelay, .write _ _ _ => none
  | .conversionDelay, .read _ _ _ _ => none
  | .nothing, .delay _ => none
  | .resultRead, .delay _ => none
  | _, .write _ b .ok => if b = resetByte then some .resetDelay else some .conversionDelay
  | o, .write _ _ (.err _) => some o
  | .nothing, .read _ reg _ _ => if reg = adcReg then none else some .nothing
  | .resultRead, .read _ reg _ (.ok _) => if reg = adcReg then some .nothing else some .resultRead
  | .resultRead, .read _ _ _ (.err _) => some .resultRead

/-- What is owed at the end of a trace, none if an event of it came at the wrong time. -/
def owedAfter : List Event → Option Owed → Option Owed
  | [], o => o
  | e :: es, o => owedAfter es (o.bind (fun x => x.after e))

/-- The trace is well timed, and an unread settled conversion stands exactly in RESULT_READY. -/
abbrev TimedInv (s : State) : Prop :=
  owedAfter s.trace (some .nothing) = some (if s.phase = .resultReady then .resultRead else .nothing)

/-! ### Terms of single statements -/

/-- The bus calls the `k`-th and later answers of which are all `ok` with the bytes `bytes k` (20_memory.md R57):
reads of the PROM words `0 .. n - 1`, the first of them the `first`-th call from `s`. -/
abbrev PromAnswered (s : State) (first n : Nat) (bytes : Nat → Byte × Byte × Byte) : Prop :=
  ∀ k, k < n → s.answerAt (first + k) (promCall k) = .ok (bytes k).1 (bytes k).2.1 (bytes k).2.2

/-- The event of a PROM word that was read. -/
def promEvent (bytes : Nat → Byte × Byte × Byte) (k : Nat) : Event :=
  .read Config.devAddr (BitVec.ofNat 8 (0xA0 + 2 * k)) 2 (.ok [(bytes k).1, (bytes k).2.1])

/-- The calibration words after the first `n` PROM words have arrived (40_calibration_crc.md R82, R83). -/
def wordsAfter (old : Vector Word16 8) (n : Nat) (bytes : Nat → Byte × Byte × Byte) : Vector Word16 8 :=
  Vector.ofFn fun k => if k.val < n then (bytes k.val).1 ++ (bytes k.val).2.1 else old[k]

/-- The conversion byte of a channel as the statements write it (30_encoding.md R66). -/
def startByte : Channel → Byte
  | .pressure => BitVec.ofNat 8 (0x40 + Config.res.val)
  | .temperature => BitVec.ofNat 8 (0x50 + Config.res.val)

/-- A fresh flag after an accepted START (41_conversion_sequencer.md R104): cleared where the cycle restarts. -/
def freshAfterStart (ph : Phase) (old : Bool) : Bool :=
  match ph with
  | .bothReady | .compensated => false
  | .idle | .started | .settling | .resultReady => old

/-- A sample from its three bytes (20_memory.md R49). -/
def sampleOf (b0 b1 b2 : Byte) : Word24 := BitVec.ofNat 24 (65536 * b0.toNat + 256 * b1.toNat + b2.toNat)

/-- The words with bit `b` of word `k` flipped (40_calibration_crc.md R93). -/
def flipBit (ws : Vector Word16 8) (k : Fin 8) (b : Fin 16) : Vector Word16 8 :=
  ws.set k (ws[k] ^^^ (1#16 <<< b.val))

/-- The stream position of a message bit: word by word, each from bit 15 down (40_calibration_crc.md R93,
95_test_vectors.md T-CRC-12). -/
def streamPosition (k : Fin 8) (b : Fin 16) : Nat := 16 * k.val + (15 - b.val)

/-- Two tables XORed word by word (40_calibration_crc.md R92). -/
def xorWords (a b : Vector Word16 8) : Vector Word16 8 := Vector.zipWith (· ^^^ ·) a b

/-- A completion code is among those a command can have (60_exceptions.md R187). -/
def codeAllowed : Instr → ResultCode → Bool
  | .init, r => r == .ok || r == .transportError || r == .integrityError
  | .loadcal, r => r == .ok || r == .transportError || r == .integrityError
  | .reset, r => r == .ok || r == .transportError
  | .startP, r | .startT, r => r == .ok || r == .transportError
  | .readP, r | .readT, r => r == .ok || r == .transportError || r == .usageError
  | .convertP, r | .convertT, r => r == .ok || r == .transportError
  | .setwaterFresh, r | .setwaterSalt, r => r == .ok
  | .getreading, r => r == .ok || r == .usageError
  | .devReset, _ | .devConvD1 _, _ | .devConvD2 _, _ | .devPromRead _, _ | .devAdcRead, _ => false

/-- The events a command may perform, by kind, register and width (20_memory.md R51). -/
def eventAllowed : Instr → Event → Bool
  | .init, .write dev b _ => dev == Config.devAddr && b == 0x1E#8
  | .init, .delay us => us == 10000
  | .init, .read dev reg n _ => dev == Config.devAddr && (reg &&& 0xF1#8) == 0xA0#8 && n == 2
  | .reset, .write dev b _ => dev == Config.devAddr && b == 0x1E#8
  | .reset, .delay us => us == 10000
  | .loadcal, .read dev reg n _ => dev == Config.devAddr && (reg &&& 0xF1#8) == 0xA0#8 && n == 2
  | .startP, .write dev b _ => dev == Config.devAddr && (b &&& 0xF0#8) == 0x40#8
  | .startT, .write dev b _ => dev == Config.devAddr && (b &&& 0xF0#8) == 0x50#8
  | .startP, .delay us | .startT, .delay us => us == Config.tConv
  | .readP, .read dev reg n _ | .readT, .read dev reg n _ => dev == Config.devAddr && reg == 0x00#8 && n == 3
  | .convertP, .write dev b _ => dev == Config.devAddr && (b &&& 0xF0#8) == 0x40#8
  | .convertT, .write dev b _ => dev == Config.devAddr && (b &&& 0xF0#8) == 0x50#8
  | .convertP, .delay us | .convertT, .delay us => us == Config.tConv
  | .convertP, .read dev reg n _ | .convertT, .read dev reg n _ => dev == Config.devAddr && reg == 0x00#8 && n == 3
  | _, _ => false

end Sys2Proof.Machine
end

