-- ==== Sys2Proof/Certificates/Slice0/Obligations.lean ====
section
/-! DEFINITION. The statements for the provers. Each docstring names the rule of spec/ it formalises. Next states are
written out field by field, so that a statement is an instruction's result, its frame and its completion at once: a
field that is not named is unchanged. The fields `trace`, `calls`, `answers`, `script` and `busWord` are the model's own
(logs 2, 5, 6, 18): the trace is that of 20_memory.md R53, the others are how the model holds its surroundings. So are
`crcRun` and `wordsRead` (log 10), which record what the read port may return. -/

open Sys2Proof Sys2Proof.Machine

/-! ### Encoding -/

/-- 30_encoding.md R61: the twelve legal command words and their commands; every other word is illegal. -/
def Obligations.LegalCommandWords : Prop :=
  decodeCmd 0x10#8 = .instr .init ∧ decodeCmd 0x20#8 = .instr .reset ∧ decodeCmd 0x30#8 = .instr .loadcal ∧
  decodeCmd 0x41#8 = .instr .startP ∧ decodeCmd 0x42#8 = .instr .startT ∧
  decodeCmd 0x51#8 = .instr .readP ∧ decodeCmd 0x52#8 = .instr .readT ∧
  decodeCmd 0x61#8 = .instr .convertP ∧ decodeCmd 0x62#8 = .instr .convertT ∧
  decodeCmd 0x71#8 = .instr .setwaterFresh ∧ decodeCmd 0x72#8 = .instr .setwaterSalt ∧
  decodeCmd 0x80#8 = .instr .getreading ∧
  ∀ w : Byte, w ∉ [0x10#8, 0x20#8, 0x30#8, 0x41#8, 0x42#8, 0x51#8, 0x52#8, 0x61#8, 0x62#8, 0x71#8, 0x72#8, 0x80#8] →
    ∃ why, decodeCmd w = .reject why

/-- 30_encoding.md R63: a word is illegal exactly by one of the rule's clauses on `op` and `arg`, and an illegal word
completes IllegalCommand: no event, no state change except `RESULT <- 4`. (Taking the word off the script is the
model's own, log 5.) -/
def Obligations.IllegalCommandWords : Prop :=
  (∀ w : Byte, (∃ why, decodeCmd w = .reject why) ↔
    (w.toNat / 16 = 0 ∨ 9 ≤ w.toNat / 16 ∨
      ((w.toNat / 16 = 1 ∨ w.toNat / 16 = 2 ∨ w.toNat / 16 = 3 ∨ w.toNat / 16 = 8) ∧ w.toNat % 16 ≠ 0) ∨
      ((4 ≤ w.toNat / 16 ∧ w.toNat / 16 ≤ 7) ∧ w.toNat % 16 ≠ 1 ∧ w.toNat % 16 ≠ 2))) ∧
  ∀ (s : State) (w : Byte) (ws : List Byte) (why : DecodeReject),
    s.busWord = none → s.script = w :: ws → decodeCmd w = .reject why →
      step s = .next { s with script := ws, result := .illegalCommand }

/-- 30_encoding.md R61, R65 to R68: decoding an encoded well-formed instruction gives it back, for all seventeen
constructors and every value of their fields. -/
def Obligations.DecodeOfEncode : Prop :=
  ∀ i : Instr, i.WellFormed → decode (encode i) = .instr i

/-- 30_encoding.md R61, R65 to R68: a word that decodes, under any format, decodes to a well-formed instruction whose
encoding is that word: no two instructions share a word and no bit of a word is dropped. -/
def Obligations.EncodeOfDecode : Prop :=
  ∀ (e : Encoded) (i : Instr), decode e = .instr i → i.WellFormed ∧ encode i = e

/-- Sample words written out from the spec's encodings (30_encoding.md R61, R65 to R68). -/
def Obligations.SampleWordsDecode : Prop :=
  decode (.cmd 0b0100_0010#8) = .instr .startT ∧ decode (.cmd 0b0111_0001#8) = .instr .setwaterFresh ∧
  decode (.cmd 0b1000_0000#8) = .instr .getreading ∧ decode (.ctrl 0b0001_1110#8) = .instr .devReset ∧
  decode (.ctrl 0b0101_1000#8) = .instr (.devConvD2 8) ∧ decode (.reg 0b1010_0110#8) = .instr (.devPromRead 3) ∧
  decode (.reg 0b0000_0000#8) = .instr .devAdcRead

/-- 30_encoding.md R70: each of the twelve script lines stands for its command word, one byte a line; a comment line
stands for nothing; the encoding of a program is the sequence of its lines' words, in order. -/
def Obligations.ScriptEncoding : Prop :=
  (assemble ["INIT"] = some [0x10#8] ∧ assemble ["RESET"] = some [0x20#8] ∧ assemble ["LOADCAL"] = some [0x30#8] ∧
    assemble ["START P"] = some [0x41#8] ∧ assemble ["START T"] = some [0x42#8] ∧
    assemble ["READ P"] = some [0x51#8] ∧ assemble ["READ T"] = some [0x52#8] ∧
    assemble ["CONVERT P"] = some [0x61#8] ∧ assemble ["CONVERT T"] = some [0x62#8] ∧
    assemble ["SETWATER FRESH"] = some [0x71#8] ∧ assemble ["SETWATER SALT"] = some [0x72#8] ∧
    assemble ["GETREADING"] = some [0x80#8]) ∧
  assemble [] = some [] ∧
  assemble ["INIT", "RESET", "LOADCAL", "START P", "START T", "READ P", "READ T", "CONVERT P", "CONVERT T",
      "SETWATER FRESH", "SETWATER SALT", "GETREADING"] =
    some [0x10#8, 0x20#8, 0x30#8, 0x41#8, 0x42#8, 0x51#8, 0x52#8, 0x61#8, 0x62#8, 0x71#8, 0x72#8, 0x80#8] ∧
  (∀ (line : String) (lines : List String), line.toList.head? = some '#' → assemble (line :: lines) = assemble lines) ∧
  ∀ (l l' : List String) (w w' : List Byte), assemble l = some w → assemble l' = some w' →
    assemble (l ++ l') = some (w ++ w')

/-- 30_encoding.md R71, R72: a script may use the document's own names of the operations. How an operand is spelled
with such a name is the model's (log 14). -/
def Obligations.ScriptAliases : Prop :=
  assemble ["Initialize()"] = some [0x10#8] ∧ assemble ["Reset()"] = some [0x20#8] ∧
  assemble ["LoadCalibration()"] = some [0x30#8] ∧ assemble ["LoadAndValidate()"] = some [0x30#8] ∧
  assemble ["StartConversion(P)"] = some [0x41#8] ∧ assemble ["StartConversion(T)"] = some [0x42#8] ∧
  assemble ["ReadConversionResult(P)"] = some [0x51#8] ∧ assemble ["ReadConversionResult(T)"] = some [0x52#8] ∧
  assemble ["ReadResult(P)"] = some [0x51#8] ∧ assemble ["ReadResult(T)"] = some [0x52#8] ∧
  assemble ["Convert(P)"] = some [0x61#8] ∧ assemble ["Convert(T)"] = some [0x62#8] ∧
  assemble ["SetWaterType(FRESH)"] = some [0x71#8] ∧ assemble ["SetWaterType(SALT)"] = some [0x72#8] ∧
  assemble ["GetCompensatedReading()"] = some [0x80#8]

/-! ### The step -/

/-- The step runs the decoded instruction: a command word the host presents, or a device-side word that stands by
itself, is taken off and run by `exec`; with neither, the core waits. The interface is the model's (logs 5 and 6). -/
def Obligations.StepRunsDecodedInstruction : Prop :=
  (∀ (s : State) (w : Byte) (ws : List Byte) (i : Instr),
    s.busWord = none → s.script = w :: ws → decodeCmd w = .instr i → step s = exec i { s with script := ws }) ∧
  (∀ (s : State) (b : BusWord) (i : Instr),
    s.busWord = some b → decode b.encoded = .instr i → step s = exec i { s with busWord := none }) ∧
  ∀ s : State, s.busWord = none → s.script = [] → step s = .next s

/-- An opcode-table word put where the step fetches is the instruction the next step runs: every host command, and
every device-side row whose word is not also a legal command word. The interface is the model's (logs 5, 6, 17). -/
def Obligations.PresentedWordIsRun : Prop :=
  (∀ (s : State) (i : Instr), i.isCommand = true →
    step (s.withFetchWord 8 (encode i).word.toNat) = exec i { s with busWord := none, script := s.script.tail }) ∧
  ∀ (s : State) (i : Instr) (why : DecodeReject), i.WellFormed → i.isCommand = false →
    decodeCmd (encode i).word = .reject why →
      step (s.withFetchWord 8 (encode i).word.toNat) = exec i { s with busWord := none }

/-- With no device-side word standing, every step of every state gives a next state, in which none stands either: no
completion code and no answer of the bus stops the machine (20_memory.md R57, 60_exceptions.md R193). -/
def Obligations.StepNeverStops : Prop :=
  ∀ s : State, s.busWord = none → ∃ t, step s = .next t ∧ t.busWord = none

/-! ### Arithmetic -/

/-- 00_scope.md R13: `tdiv(a, b)` is the unique `q` with `a = q*b + r`, `|r| < b` and `r = 0` or `sign r = sign a`; it
is the floor for `a >= 0` and minus the floor of `-a` for `a < 0`, and for `a < 0` no multiple of `2^k` it is the
arithmetic shift plus one. -/
def Obligations.TruncatingDivision : Prop :=
  (∀ a b : Int, 0 < b → ∃ r, a = tdiv a b * b + r ∧ |r| < b ∧ (r = 0 ∨ r.sign = a.sign)) ∧
  (∀ a b q r : Int, 0 < b → a = q * b + r → |r| < b → (r = 0 ∨ r.sign = a.sign) → q = tdiv a b) ∧
  (∀ a b : Int, 0 < b → (0 ≤ a → tdiv a b = Int.fdiv a b) ∧ (a < 0 → tdiv a b = -(Int.fdiv (-a) b))) ∧
  ∀ (a : Int) (k : Nat), a < 0 → ¬((2 : Int) ^ k ∣ a) → tdiv a (2 ^ k) = (a >>> k) + 1

/-- 42_compensation.md R146: the two shift implementations of `tdiv(a, 2^k)`. -/
def Obligations.DivisionByShifting : Prop :=
  ∀ (a : Int) (k : Nat),
    (0 ≤ a → tdiv a (2 ^ k) = a >>> k) ∧
    (a < 0 → tdiv a (2 ^ k) = -((-a) >>> k) ∧ tdiv a (2 ^ k) = (a + (2 ^ k - 1)) >>> k)

/-- 20_memory.md R48, R49: bytes are joined big-endian. -/
def Obligations.BigEndianAssembly : Prop :=
  (∀ hi lo : Byte, (be16 hi lo).toNat = 256 * hi.toNat + lo.toNat) ∧
  ∀ b0 b1 b2 : Byte, (be24 b0 b1 b2).toNat = 65536 * b0.toNat + 256 * b1.toNat + b2.toNat

/-! ### CRC-4 -/

/-- 40_calibration_crc.md R87: a bit-step shifts left `mod 2^16` and XORs `0x3000` exactly when bit 15 was set before
the shift. -/
def Obligations.CrcBitStepRule : Prop :=
  ∀ rem : Word16,
    (32768 ≤ rem.toNat → (crcBitStep rem).toNat = ((2 * rem.toNat) % 65536) ^^^ 0x3000) ∧
    (rem.toNat < 32768 → (crcBitStep rem).toNat = (2 * rem.toNat) % 65536)

/-- 40_calibration_crc.md R85: half-step `2*i` consumes the high byte of message word `i`, half-step `2*i + 1` its low
byte; the message is the words with the low nibble of word 7 masked, so the last byte has a zero low nibble. -/
def Obligations.CrcByteOrder : Prop :=
  ∀ ws : Vector Word16 8,
    (crcStream ws).length = 16 ∧
    (∀ i : Fin 8, i.val < 7 →
      (crcStream ws)[2 * i.val]? = some (ws[i].extractLsb' 8 8) ∧
      (crcStream ws)[2 * i.val + 1]? = some (ws[i].extractLsb' 0 8)) ∧
    (crcStream ws)[14]? = some (ws[7].extractLsb' 8 8) ∧
    (crcStream ws)[15]? = some (ws[7].extractLsb' 0 8 &&& 0xF0#8)

/-- 40_calibration_crc.md R91 (with R84 to R88, and the pseudocode of R80): the CRC block over natural numbers. The
remainder starts at 0; each of the sixteen half-steps XORs its byte into it and makes eight bit-steps modulo `2^16`; the
CRC is bits 15 to 12 of the last remainder; a LOADCAL that loads leaves CRC_OK the comparison of the CRC of C with the
low nibble of word 7. -/
def Obligations.CrcIsTheBlock : Prop :=
  (∀ ws : Vector Word16 8,
    let m : List Nat := [ws[0].toNat, ws[1].toNat, ws[2].toNat, ws[3].toNat, ws[4].toNat, ws[5].toNat, ws[6].toNat,
      16 * (ws[7].toNat / 16)]
    let byte : Nat → Nat := fun k => if k % 2 = 0 then m.getD (k / 2) 0 / 256 else m.getD (k / 2) 0 % 256
    let bitStep : Nat → Nat := fun r => if 32768 ≤ r then ((2 * r) % 65536) ^^^ 0x3000 else (2 * r) % 65536
    let halfStep : Nat → Nat → Nat := fun r k => (List.range 8).foldl (fun r _ => bitStep r) (r ^^^ byte k)
    (crcRemainder ws).toNat = (List.range 16).foldl halfStep 0 ∧
    (crc4 ws).toNat = (List.range 16).foldl halfStep 0 / 4096 ∧
    (storedNibble ws).toNat = ws[7].toNat % 16) ∧
  ∀ s t : State, exec .loadcal s = .next t → t.calLoaded = true →
    t.rem = crcRemainder t.c ∧ t.crcCalc = crc4 t.c ∧ t.crcRead = storedNibble t.c ∧
      (t.crcOk = true ↔ (crc4 t.c).toNat = t.c[7].toNat % 16)

/-- 40_calibration_crc.md R92: after a half-step the low byte is zero; a bit-step multiplies the top four bits by `x`
modulo `x^4 + x + 1`, taking in bit 11; `CRC4` is linear, ignores the low nibble of word 7 and is 0 on zeros; bits 11
to 8 need not be zero. -/
def Obligations.CrcStructure : Prop :=
  (∀ (rem : Word16) (b : Byte), (crcHalfStep rem b).extractLsb' 0 8 = 0#8) ∧
  (∀ rem : Word16, (crcBitStep rem).extractLsb' 12 4 =
    (rem.extractLsb' 11 4) ^^^ (if rem.getLsbD 15 then 0b0011#4 else 0#4)) ∧
  (∀ a b : Vector Word16 8, crc4 (xorWords a b) = crc4 a ^^^ crc4 b) ∧
  (∀ ws : Vector Word16 8, crc4 (ws.set 7 (ws[7] &&& 0xFFF0#16)) = crc4 ws) ∧
  crc4 (Vector.replicate 8 0#16) = 0#4 ∧
  crcHalfStep 0#16 0x31#8 = 0x3100#16

/-- 40_calibration_crc.md R93: in every valid table every single-bit flip is detected (a flip of the stored nibble
changes only what is read, any other flip only what is computed), and two flips of message bits whose stream positions
differ by a multiple of 15 are never detected. -/
def Obligations.SingleBitFlipsAreDetected : Prop :=
  (∀ (ws : Vector Word16 8) (k : Fin 8) (b : Fin 16), crcMatches ws = true → crcMatches (flipBit ws k b) = false) ∧
  (∀ (ws : Vector Word16 8) (k : Fin 8) (b : Fin 16),
    (streamPosition k b < 124 → crc4 (flipBit ws k b) ≠ crc4 ws ∧ storedNibble (flipBit ws k b) = storedNibble ws) ∧
    (124 ≤ streamPosition k b → crc4 (flipBit ws k b) = crc4 ws ∧ storedNibble (flipBit ws k b) ≠ storedNibble ws)) ∧
  (∀ (ws : Vector Word16 8) (k k' : Fin 8) (b b' : Fin 16),
    streamPosition k b < 124 → streamPosition k' b' < 124 → streamPosition k b % 15 = streamPosition k' b' % 15 →
      crc4 (flipBit (flipBit ws k b) k' b') = crc4 ws) ∧
  crcMatches #v[0xB133#16, 0x3334#16, 0x3536#16, 0x3738#16, 0x3940#16, 0x4142#16, 0x4344#16, 0x450B#16] = true

/-- 40_calibration_crc.md R94: the all-zeros and the all-ones image validate, with the CRC values the rule gives. -/
def Obligations.ConstantImagesValidate : Prop :=
  (storedNibble (Vector.replicate 8 0x0000#16) = 0x0#4 ∧ crc4 (Vector.replicate 8 0x0000#16) = 0x0#4 ∧
    crcMatches (Vector.replicate 8 0x0000#16) = true) ∧
  (storedNibble (Vector.replicate 8 0xFFFF#16) = 0xF#4 ∧ crcRemainder (Vector.replicate 8 0xFFFF#16) = 0xF000#16 ∧
    crc4 (Vector.replicate 8 0xFFFF#16) = 0xF#4 ∧ crcMatches (Vector.replicate 8 0xFFFF#16) = true)

/-! ### LOADCAL -/

/-- 40_calibration_crc.md R80, R82, R84, R88, R89: LOADCAL when all eight reads are answered. -/
def Obligations.LoadcalLoadsAndJudges : Prop :=
  ∀ (s : State) (bytes : Nat → Byte × Byte × Byte), PromAnswered s 0 8 bytes →
    exec .loadcal s = .next { s with
      c := wordsAfter s.c 8 bytes
      calLoaded := true
      crcOk := decide (crc4 (wordsAfter s.c 8 bytes) = (wordsAfter s.c 8 bytes)[7].extractLsb' 0 4)
      rem := crcRemainder (wordsAfter s.c 8 bytes)
      crcRead := (wordsAfter s.c 8 bytes)[7].extractLsb' 0 4
      crcCalc := crc4 (wordsAfter s.c 8 bytes)
      crcRun := true
      wordsRead := 8
      result := if crc4 (wordsAfter s.c 8 bytes) = (wordsAfter s.c 8 bytes)[7].extractLsb' 0 4 then .ok
        else .integrityError
      trace := s.trace ++ (List.range 8).map (promEvent bytes)
      calls := s.calls + 8
      answers := s.answers.drop 8 }

/-- 40_calibration_crc.md R83: LOADCAL when read `j` is the first to fail. -/
def Obligations.LoadcalReadFails : Prop :=
  ∀ (s : State) (j : Nat) (bytes : Nat → Byte × Byte × Byte) (e : TErr),
    j < 8 → PromAnswered s 0 j bytes → s.answerAt j (promCall j) = .err e →
      exec .loadcal s = .next { s with
        c := wordsAfter s.c j bytes
        wordsRead := j
        calLoaded := false
        crcOk := false
        result := .transportError
        terr := e
        trace := s.trace ++ (List.range j).map (promEvent bytes) ++
          [.read Config.devAddr (BitVec.ofNat 8 (0xA0 + 2 * j)) 2 (.err e)]
        calls := s.calls + (j + 1)
        answers := s.answers.drop (j + 1) }

/-! ### RESET, START, READ, CONVERT -/

/-- 41_conversion_sequencer.md R103: RESET, its word, and its effect for both answers to its write. -/
def Obligations.ResetEffect : Prop :=
  decodeCmd 0x20#8 = .instr .reset ∧
  (∀ (s : State) (e : TErr), s.answerAt 0 (.write Config.devAddr 0x1E#8) = .err e →
    exec .reset s = .next { s with
      result := .transportError
      terr := e
      trace := s.trace ++ [.write Config.devAddr 0x1E#8 (.err e)]
      calls := s.calls + 1
      answers := s.answers.tail }) ∧
  ∀ (s : State) (b0 b1 b2 : Byte), s.answerAt 0 (.write Config.devAddr 0x1E#8) = .ok b0 b1 b2 →
    exec .reset s = .next { s with
      phase := .idle
      freshP := false
      freshT := false
      result := .ok
      trace := s.trace ++ [.write Config.devAddr 0x1E#8 .ok, .delay 10000]
      calls := s.calls + 1
      answers := s.answers.tail }

/-- 41_conversion_sequencer.md R104: START P and START T, for both answers to the write; accepted in every phase, and
the settling delay is performed in SETTLING. -/
def Obligations.StartEffect : Prop :=
  (decodeCmd 0x41#8 = .instr (Channel.startInstr .pressure) ∧
    decodeCmd 0x42#8 = .instr (Channel.startInstr .temperature)) ∧
  (∀ (s : State) (ch : Channel) (e : TErr), s.answerAt 0 (.write Config.devAddr (startByte ch)) = .err e →
    exec ch.startInstr s = .next { s with
      result := .transportError
      terr := e
      trace := s.trace ++ [.write Config.devAddr (startByte ch) (.err e)]
      calls := s.calls + 1
      answers := s.answers.tail }) ∧
  (∀ (s : State) (ch : Channel) (b0 b1 b2 : Byte),
    s.answerAt 0 (.write Config.devAddr (startByte ch)) = .ok b0 b1 b2 →
    exec ch.startInstr s = .next { s with
      freshP := freshAfterStart s.phase s.freshP
      freshT := freshAfterStart s.phase s.freshT
      ch := ch
      phase := .resultReady
      result := .ok
      trace := s.trace ++ [.write Config.devAddr (startByte ch) .ok, .delay Config.tConv]
      calls := s.calls + 1
      answers := s.answers.tail }) ∧
  ∀ (s : State) (ch : Channel), (beginConversion ch s).phase = .settling

/-- 41_conversion_sequencer.md R105: READ P and READ T when permitted, for both answers to the read. -/
def Obligations.ReadEffect : Prop :=
  (decodeCmd 0x51#8 = .instr .readP ∧ decodeCmd 0x52#8 = .instr .readT ∧
    Channel.readInstr .pressure = .readP ∧ Channel.readInstr .temperature = .readT) ∧
  (∀ (s : State) (ch : Channel) (e : TErr), s.phase = .resultReady → s.ch = ch →
    s.answerAt 0 (.read Config.devAddr 0x00#8 3) = .err e →
    exec ch.readInstr s = .next { s with
      result := .transportError
      terr := e
      trace := s.trace ++ [.read Config.devAddr 0x00#8 3 (.err e)]
      calls := s.calls + 1
      answers := s.answers.tail }) ∧
  (∀ (s : State) (b0 b1 b2 : Byte), s.phase = .resultReady → s.ch = .pressure →
    s.answerAt 0 (.read Config.devAddr 0x00#8 3) = .ok b0 b1 b2 →
    exec .readP s = .next { s with
      d1 := sampleOf b0 b1 b2
      d1v := true
      freshP := true
      phase := if s.freshT = true then .bothReady else .idle
      result := .ok
      trace := s.trace ++ [.read Config.devAddr 0x00#8 3 (.ok [b0, b1, b2])]
      calls := s.calls + 1
      answers := s.answers.tail }) ∧
  (∀ (s : State) (b0 b1 b2 : Byte), s.phase = .resultReady → s.ch = .temperature →
    s.answerAt 0 (.read Config.devAddr 0x00#8 3) = .ok b0 b1 b2 →
    exec .readT s = .next { s with
      d2 := sampleOf b0 b1 b2
      d2v := true
      freshT := true
      phase := if s.freshP = true then .bothReady else .idle
      result := .ok
      trace := s.trace ++ [.read Config.devAddr 0x00#8 3 (.ok [b0, b1, b2])]
      calls := s.calls + 1
      answers := s.answers.tail }) ∧
  ∀ (s : State) (ch : Channel), ¬(s.phase = .resultReady ∧ s.ch = ch) →
    exec ch.readInstr s = .next { s with result := .usageError }

/-- 41_conversion_sequencer.md R107: read before start. In IDLE, BOTH_READY and COMPENSATED, and in RESULT_READY for
the other channel, READ completes UsageError with no bus event and no state change except RESULT. -/
def Obligations.ReadBeforeStart : Prop :=
  (∀ (s : State) (ch : Channel), (s.phase = .idle ∨ s.phase = .bothReady ∨ s.phase = .compensated) →
    exec ch.readInstr s = .next { s with result := .usageError }) ∧
  ∀ (s : State) (ch : Channel), s.phase = .resultReady → s.ch ≠ ch →
    exec ch.readInstr s = .next { s with result := .usageError }

/-- 41_conversion_sequencer.md R106: CONVERT P and CONVERT T: the write fails, the read fails, or both are
answered. -/
def Obligations.ConvertEffect : Prop :=
  (decodeCmd 0x61#8 = .instr .convertP ∧ decodeCmd 0x62#8 = .instr .convertT ∧
    Channel.convertInstr .pressure = .convertP ∧ Channel.convertInstr .temperature = .convertT) ∧
  (∀ (s : State) (ch : Channel) (e : TErr), s.answerAt 0 (.write Config.devAddr (startByte ch)) = .err e →
    exec ch.convertInstr s = .next { s with
      result := .transportError
      terr := e
      trace := s.trace ++ [.write Config.devAddr (startByte ch) (.err e)]
      calls := s.calls + 1
      answers := s.answers.tail }) ∧
  (∀ (s : State) (ch : Channel) (b0 b1 b2 : Byte) (e : TErr),
    s.answerAt 0 (.write Config.devAddr (startByte ch)) = .ok b0 b1 b2 →
    s.answerAt 1 (.read Config.devAddr 0x00#8 3) = .err e →
    exec ch.convertInstr s = .next { s with
      freshP := freshAfterStart s.phase s.freshP
      freshT := freshAfterStart s.phase s.freshT
      ch := ch
      phase := .resultReady
      result := .transportError
      terr := e
      trace := s.trace ++ [.write Config.devAddr (startByte ch) .ok, .delay Config.tConv,
        .read Config.devAddr 0x00#8 3 (.err e)]
      calls := s.calls + 2
      answers := s.answers.drop 2 }) ∧
  (∀ (s : State) (x0 x1 x2 b0 b1 b2 : Byte),
    s.answerAt 0 (.write Config.devAddr (startByte .pressure)) = .ok x0 x1 x2 →
    s.answerAt 1 (.read Config.devAddr 0x00#8 3) = .ok b0 b1 b2 →
    exec .convertP s = .next { s with
      d1 := sampleOf b0 b1 b2
      d1v := true
      freshP := true
      freshT := freshAfterStart s.phase s.freshT
      ch := .pressure
      phase := if freshAfterStart s.phase s.freshT = true then .bothReady else .idle
      result := .ok
      trace := s.trace ++ [.write Config.devAddr (startByte .pressure) .ok, .delay Config.tConv,
        .read Config.devAddr 0x00#8 3 (.ok [b0, b1, b2])]
      calls := s.calls + 2
      answers := s.answers.drop 2 }) ∧
  ∀ (s : State) (x0 x1 x2 b0 b1 b2 : Byte),
    s.answerAt 0 (.write Config.devAddr (startByte .temperature)) = .ok x0 x1 x2 →
    s.answerAt 1 (.read Config.devAddr 0x00#8 3) = .ok b0 b1 b2 →
    exec .convertT s = .next { s with
      d2 := sampleOf b0 b1 b2
      d2v := true
      freshT := true
      freshP := freshAfterStart s.phase s.freshP
      ch := .temperature
      phase := if freshAfterStart s.phase s.freshP = true then .bothReady else .idle
      result := .ok
      trace := s.trace ++ [.write Config.devAddr (startByte .temperature) .ok, .delay Config.tConv,
        .read Config.devAddr 0x00#8 3 (.ok [b0, b1, b2])]
      calls := s.calls + 2
      answers := s.answers.drop 2 }

/-- 30_encoding.md R71, 41_conversion_sequencer.md R106: CONVERT behaves as START followed, if it completed OK, by
READ. -/
def Obligations.ConvertIsStartThenRead : Prop :=
  ∀ (s t : State) (ch : Channel), exec ch.startInstr s = .next t →
    exec ch.convertInstr s = if t.result = .ok then exec ch.readInstr t else .next t

/-! ### INIT -/

/-- 43_initialize.md R170: INIT: the reset write fails, PROM read `j` is the first to fail, or all are answered. -/
def Obligations.InitEffect : Prop :=
  decodeCmd 0x10#8 = .instr .init ∧
  (∀ (s : State) (e : TErr), s.answerAt 0 (.write Config.devAddr 0x1E#8) = .err e →
    exec .init s = .next { s with
      result := .transportError
      terr := e
      trace := s.trace ++ [.write Config.devAddr 0x1E#8 (.err e)]
      calls := s.calls + 1
      answers := s.answers.tail }) ∧
  (∀ (s : State) (b0 b1 b2 : Byte) (j : Nat) (bytes : Nat → Byte × Byte × Byte) (e : TErr),
    s.answerAt 0 (.write Config.devAddr 0x1E#8) = .ok b0 b1 b2 →
    j < 8 → PromAnswered s 1 j bytes → s.answerAt (1 + j) (promCall j) = .err e →
    exec .init s = .next { s with
      phase := .idle
      freshP := false
      freshT := false
      c := wordsAfter s.c j bytes
      wordsRead := j
      calLoaded := false
      crcOk := false
      result := .transportError
      terr := e
      trace := s.trace ++ [.write Config.devAddr 0x1E#8 .ok, .delay 10000] ++ (List.range j).map (promEvent bytes) ++
        [.read Config.devAddr (BitVec.ofNat 8 (0xA0 + 2 * j)) 2 (.err e)]
      calls := s.calls + (j + 2)
      answers := s.answers.drop (j + 2) }) ∧
  ∀ (s : State) (b0 b1 b2 : Byte) (bytes : Nat → Byte × Byte × Byte),
    s.answerAt 0 (.write Config.devAddr 0x1E#8) = .ok b0 b1 b2 → PromAnswered s 1 8 bytes →
    exec .init s = .next { s with
      phase := .idle
      freshP := false
      freshT := false
      c := wordsAfter s.c 8 bytes
      calLoaded := true
      crcOk := decide (crc4 (wordsAfter s.c 8 bytes) = (wordsAfter s.c 8 bytes)[7].extractLsb' 0 4)
      rem := crcRemainder (wordsAfter s.c 8 bytes)
      crcRead := (wordsAfter s.c 8 bytes)[7].extractLsb' 0 4
      crcCalc := crc4 (wordsAfter s.c 8 bytes)
      crcRun := true
      wordsRead := 8
      result := if crc4 (wordsAfter s.c 8 bytes) = (wordsAfter s.c 8 bytes)[7].extractLsb' 0 4 then .ok
        else .integrityError
      trace := s.trace ++ [.write Config.devAddr 0x1E#8 .ok, .delay 10000] ++ (List.range 8).map (promEvent bytes)
      calls := s.calls + 9
      answers := s.answers.drop 9 }

/-- 30_encoding.md R71, 43_initialize.md R170: INIT behaves as RESET followed, if it completed OK, by LOADCAL. -/
def Obligations.InitIsResetThenLoadcal : Prop :=
  ∀ s t : State, exec .reset s = .next t →
    exec .init s = if t.result = .ok then exec .loadcal t else .next t

/-! ### SETWATER, GETREADING and Compute -/

/-- 42_compensation.md R130: SETWATER FRESH and SETWATER SALT write WATER and RESULT and nothing else; no event. -/
def Obligations.SetwaterEffect : Prop :=
  (decodeCmd 0x71#8 = .instr (WaterMode.setwaterInstr .fresh) ∧
    decodeCmd 0x72#8 = .instr (WaterMode.setwaterInstr .salt)) ∧
  ∀ (s : State) (m : WaterMode), exec m.setwaterInstr s = .next { s with water := m, result := .ok }

/-- 42_compensation.md R131: GETREADING, permitted and not permitted; no event in either case. -/
def Obligations.GetreadingEffect : Prop :=
  decodeCmd 0x80#8 = .instr .getreading ∧
  (∀ s : State, s.calLoaded = true → s.d1v = true → s.d2v = true →
    exec .getreading s = .next { s with
      temp2 := BitVec.ofInt 32 (compute ⟨s.d1.toNat, s.d2.toNat, s.c[1].toNat, s.c[2].toNat, s.c[3].toNat,
        s.c[4].toNat, s.c[5].toNat, s.c[6].toNat⟩ s.water).temp2
      p := BitVec.ofInt 32 (compute ⟨s.d1.toNat, s.d2.toNat, s.c[1].toNat, s.c[2].toNat, s.c[3].toNat,
        s.c[4].toNat, s.c[5].toNat, s.c[6].toNat⟩ s.water).p
      depthE10 := BitVec.ofInt 64 (compute ⟨s.d1.toNat, s.d2.toNat, s.c[1].toNat, s.c[2].toNat, s.c[3].toNat,
        s.c[4].toNat, s.c[5].toNat, s.c[6].toNat⟩ s.water).depthE10
      outValid := true
      phase := if s.phase = .bothReady then .compensated else s.phase
      result := .ok }) ∧
  ∀ s : State, ¬(s.calLoaded = true ∧ s.d1v = true ∧ s.d2v = true) →
    exec .getreading s = .next { s with result := .usageError }

/-- 42_compensation.md R132: `Compute` is the block L1 to L22, every division truncating toward zero. -/
def Obligations.ComputeIsTheBlock : Prop :=
  ∀ (x : ComputeInput) (w : WaterMode),
    compute x w =
      let dT := x.d2 - x.c5 * 256
      let temp := 2000 + (dT * x.c6).tdiv 8388608
      let off := x.c2 * 65536 + (x.c4 * dT).tdiv 128
      let sens := x.c1 * 32768 + (x.c3 * dT).tdiv 256
      let ti := if temp < 2000 then (3 * dT * dT).tdiv 8589934592 else (7 * dT * dT).tdiv 137438953472
      let offi :=
        if temp < -1500 then (3 * (temp - 2000) ^ 2).tdiv 2 + 7 * (temp + 1500) ^ 2
        else if temp < 2000 then (3 * (temp - 2000) ^ 2).tdiv 2
        else ((temp - 2000) ^ 2).tdiv 16
      let sensi :=
        if temp < -1500 then (5 * (temp - 2000) ^ 2).tdiv 8 + 4 * (temp + 1500) ^ 2
        else if temp < 2000 then (5 * (temp - 2000) ^ 2).tdiv 8
        else 0
      let p := ((x.d1 * (sens - sensi)).tdiv 2097152 - (off - offi)).tdiv 32768
      { temp2 := temp - ti, p := p,
        depthE10 := (10 * p - 101325) * (match w with | .fresh => 1019716 | .salt => 994500) }

/-- 42_compensation.md R151: the branch boundaries, and which `dT*c6` give 2000 and 1999. -/
def Obligations.BranchBoundaries : Prop :=
  (∀ temp dT : Int, 2000 ≤ temp →
    tiOf temp dT = tdiv (7 * dT * dT) (2 ^ 37) ∧ offiOf temp = tdiv ((temp - 2000) ^ 2) 16 ∧ sensiOf temp = 0) ∧
  (offiOf 2000 = 0 ∧ sensiOf 2000 = 0) ∧
  (∀ temp dT : Int, -1500 ≤ temp → temp ≤ 1999 →
    tiOf temp dT = tdiv (3 * dT * dT) (2 ^ 33) ∧ offiOf temp = tdiv (3 * (temp - 2000) ^ 2) 2 ∧
      sensiOf temp = tdiv (5 * (temp - 2000) ^ 2) 8) ∧
  (offiOf (-1500) = 18375000 ∧ sensiOf (-1500) = 7656250) ∧
  (∀ temp dT : Int, temp < -1500 →
    tiOf temp dT = tdiv (3 * dT * dT) (2 ^ 33) ∧
      offiOf temp = tdiv (3 * (temp - 2000) ^ 2) 2 + 7 * (temp + 1500) ^ 2 ∧
      sensiOf temp = tdiv (5 * (temp - 2000) ^ 2) 8 + 4 * (temp + 1500) ^ 2) ∧
  (∀ x : ComputeInput, tempOf x = 2000 ↔ |dTOf x * x.c6| < 2 ^ 23) ∧
  (∀ x : ComputeInput, tempOf x ≤ 1999 ↔ dTOf x * x.c6 ≤ -2 ^ 23) ∧
  ∀ x : ComputeInput, x.c6 = 29059 → (tempOf x ≤ 1999 ↔ dTOf x ≤ -289)

/-- 42_compensation.md R149: the ranges of `dT`, `TEMP`, `OFF` and `SENS` and the safe bounds of every other row of the
table, for every input in range. (The extremes the rule calls found by search are not stated.) -/
def Obligations.ComputeBounds : Prop :=
  ∀ x : ComputeInput, x.InRange →
    (-16776960 ≤ dTOf x ∧ dTOf x ≤ 16777215) ∧ (-129068 ≤ tempOf x ∧ tempOf x ≤ 133069) ∧
    (|dTOf x * x.c6| < 2 ^ 40 ∧ |x.c4 * dTOf x| < 2 ^ 40 ∧ |x.c3 * dTOf x| < 2 ^ 40) ∧
    (3 * dTOf x * dTOf x < 2 ^ 51 ∧ 7 * dTOf x * dTOf x < 2 ^ 51) ∧
    ((tempOf x - 2000) ^ 2 < 2 ^ 35 ∧ (tempOf x + 1500) ^ 2 < 2 ^ 35) ∧
    (-8589672450 ≤ offOf x ∧ offOf x ≤ 12884704768) ∧ (-4294836225 ≤ sensOf x ∧ sensOf x ≤ 6442352384) ∧
    (0 ≤ tiOf (tempOf x) (dTOf x) ∧ tiOf (tempOf x) (dTOf x) < 2 ^ 17) ∧
    (0 ≤ offiOf (tempOf x) ∧ offiOf (tempOf x) < 2 ^ 38) ∧ (0 ≤ sensiOf (tempOf x) ∧ sensiOf (tempOf x) < 2 ^ 37) ∧
    |off2Of x| < 2 ^ 38 ∧ |sens2Of x| < 2 ^ 37 ∧ |temp2Of x| < 2 ^ 18 ∧ |x.d1 * sens2Of x| < 2 ^ 61 ∧
    |tdiv (x.d1 * sens2Of x) (2 ^ 21)| < 2 ^ 40 ∧ |tdiv (x.d1 * sens2Of x) (2 ^ 21) - off2Of x| < 2 ^ 41 ∧
    |pOf x| < 2 ^ 26 ∧ |10 * pOf x - 101325| < 2 ^ 30 ∧ ∀ w, |depthOf (pOf x) w| < 2 ^ 50

/-- 10_state.md R31, 42_compensation.md R149: the output registers hold the exact integers of `Compute`: no reading is
truncated by a register's width. -/
def Obligations.OutputRegistersAreExact : Prop :=
  ∀ s : State, s.calLoaded = true → s.d1v = true → s.d2v = true →
    ∃ t, exec .getreading s = .next t ∧
      t.temp2.toInt = (compute (computeInput s) s.water).temp2 ∧
      t.p.toInt = (compute (computeInput s) s.water).p ∧
      t.depthE10.toInt = (compute (computeInput s) s.water).depthE10

/-- 42_compensation.md R148: signed 64-bit arithmetic with wrap-around at every operation gives the same three values
as exact integers, for every input in range. -/
def Obligations.SixtyFourBitsSuffice : Prop :=
  ∀ (x : ComputeInput) (w : WaterMode), x.InRange →
    (compute64 x w).1.toInt = (compute x w).temp2 ∧
    (compute64 x w).2.1.toInt = (compute x w).p ∧
    (compute64 x w).2.2.toInt = (compute x w).depthE10

/-- 42_compensation.md R142 to R145: after a permitted GETREADING the exact rationals the registers stand for are
`temperature_c = TEMP2 / 100` and `pressure_mbar = P / 10` of the integers of `Compute`, and the depth register, in
units of `10^-10` metre, is exactly the depth formula applied to that pressure. -/
def Obligations.DepthIsTheExactRational : Prop :=
  ∀ s : State, s.calLoaded = true → s.d1v = true → s.d2v = true →
    ∃ t, exec .getreading s = .next t ∧
      temperatureC t = ((compute (computeInput s) s.water).temp2 : ℚ) / 100 ∧
      pressureMbar t = ((compute (computeInput s) s.water).p : ℚ) / 10 ∧
      (t.depthE10.toInt : ℚ) / 10 ^ 10 = depthMetres (pressureMbar t) t.water ∧
      (t.water = .fresh → depthMetres (pressureMbar t) t.water = (t.p.toInt / 10 - 1013.25) * 1.019716 / 100) ∧
      (t.water = .salt → depthMetres (pressureMbar t) t.water = (t.p.toInt / 10 - 1013.25) * 0.9945 / 100)

/-- 42_compensation.md R152: the ratio of the two water types, for every pressure; the depth is never zero. -/
def Obligations.WaterTypeRatio : Prop :=
  ∀ p : Int, depthOf p .fresh * 994500 = depthOf p .salt * 1019716 ∧ depthOf p .fresh ≠ 0 ∧ depthOf p .salt ≠ 0

/-- 42_compensation.md R150: the outputs are a function of the nine inputs alone: two states that agree on D1, D2,
C[1..6] and WATER and permit GETREADING get the same outputs, whatever else differs in them. -/
def Obligations.ReadingDependsOnItsInputsOnly : Prop :=
  ∀ s s' : State,
    s.calLoaded = true → s.d1v = true → s.d2v = true → s'.calLoaded = true → s'.d1v = true → s'.d2v = true →
    s.d1 = s'.d1 → s.d2 = s'.d2 → s.water = s'.water → (∀ k : Fin 8, 1 ≤ k.val → k.val ≤ 6 → s.c[k] = s'.c[k]) →
    ∃ t t', exec .getreading s = .next t ∧ exec .getreading s' = .next t' ∧
      t.temp2 = t'.temp2 ∧ t.p = t'.p ∧ t.depthE10 = t'.depthE10

/-! ### Device-side words -/

/-- 30_encoding.md R65: the reset control byte, and the one write it is. That a device-side word is performed by itself
is the model's (log 6). -/
def Obligations.DeviceResetWord : Prop :=
  encode .devReset = .ctrl 0b0001_1110#8 ∧
  ∀ s : State, exec .devReset s = .next { s with
    trace := s.trace ++ [.write Config.devAddr 0x1E#8 (writeAnswer (s.answerAt 0 (.write Config.devAddr 0x1E#8)))]
    calls := s.calls + 1
    answers := s.answers.tail }

/-- 30_encoding.md R66: the conversion bytes: the integer sum, its bit fields for every resolution in `0..15`, and the
one write each is; START and CONVERT send the one of the core's own resolution. That a device-side word is performed by
itself is the model's (log 6). -/
def Obligations.DeviceConversionWords : Prop :=
  (∀ r : Nat, r ≤ 15 →
    encode (.devConvD1 r) = .ctrl (convByte r .pressure) ∧ encode (.devConvD2 r) = .ctrl (convByte r .temperature) ∧
    ∀ ch : Channel, (convByte r ch).toNat = 0x40 + r + (match ch with | .pressure => 0x00 | .temperature => 0x10) ∧
      (convByte r ch).extractLsb' 5 3 = 0b010#3 ∧
      (convByte r ch).extractLsb' 4 1 = (match ch with | .pressure => 0#1 | .temperature => 1#1) ∧
      ((convByte r ch).extractLsb' 0 4).toNat = r) ∧
  (∀ (s : State) (r : Nat), r ≤ 15 →
    exec (.devConvD1 r) s = .next { s with
      trace := s.trace ++ [.write Config.devAddr (BitVec.ofNat 8 (0x40 + r))
        (writeAnswer (s.answerAt 0 (.write Config.devAddr (BitVec.ofNat 8 (0x40 + r)))))]
      calls := s.calls + 1
      answers := s.answers.tail } ∧
    exec (.devConvD2 r) s = .next { s with
      trace := s.trace ++ [.write Config.devAddr (BitVec.ofNat 8 (0x50 + r))
        (writeAnswer (s.answerAt 0 (.write Config.devAddr (BitVec.ofNat 8 (0x50 + r)))))]
      calls := s.calls + 1
      answers := s.answers.tail }) ∧
  ∀ ch : Channel, startByte ch = convByte Config.res ch

/-- 30_encoding.md R67: the eight PROM addresses, their bit fields, and the one two-byte read each is. That a
device-side word is performed by itself is the model's (log 6). -/
def Obligations.DevicePromWords : Prop :=
  (List.range 8).map (fun k => encode (.devPromRead k)) =
    [.reg 0xA0#8, .reg 0xA2#8, .reg 0xA4#8, .reg 0xA6#8, .reg 0xA8#8, .reg 0xAA#8, .reg 0xAC#8, .reg 0xAE#8] ∧
  (∀ k : Nat, k ≤ 7 → (promAddr k).extractLsb' 4 4 = 0xA#4 ∧ ((promAddr k).extractLsb' 1 3).toNat = k ∧
    (promAddr k).extractLsb' 0 1 = 0#1) ∧
  ∀ (s : State) (k : Nat), k ≤ 7 →
    exec (.devPromRead k) s = .next { s with
      trace := s.trace ++ [.read Config.devAddr (BitVec.ofNat 8 (0xA0 + 2 * k)) 2
        (readAnswer 2 (s.answerAt 0 (.read Config.devAddr (BitVec.ofNat 8 (0xA0 + 2 * k)) 2)))]
      calls := s.calls + 1
      answers := s.answers.tail }

/-- 30_encoding.md R68: the ADC read register, the same for both channels, and the one three-byte read it is. That a
device-side word is performed by itself is the model's (log 6). -/
def Obligations.DeviceAdcWord : Prop :=
  encode .devAdcRead = .reg 0x00#8 ∧
  ∀ s : State, exec .devAdcRead s = .next { s with
    trace := s.trace ++ [.read Config.devAddr 0x00#8 3 (readAnswer 3 (s.answerAt 0 (.read Config.devAddr 0x00#8 3)))]
    calls := s.calls + 1
    answers := s.answers.tail }

/-- The model's own choice (log 15), resting on 20_memory.md R47, R50 and 30_encoding.md R66: a conversion word outside
the domain of `RES` is refused and a PROM index above 7 faults, and no decoded word holds either; a step on a standing
device-side byte that its decoder rejects faults. -/
def Obligations.DeviceWordsOutOfDomainStop : Prop :=
  (∀ (s : State) (n : Nat),
    (15 < n → exec (.devConvD1 n) s = .refused .parameterOutOfDomain ∧
      exec (.devConvD2 n) s = .refused .parameterOutOfDomain) ∧
    (7 < n → exec (.devPromRead n) s = .fault .undefinedBusAccess)) ∧
  (∀ (e : Encoded) (n : Nat), (15 < n → decode e ≠ .instr (.devConvD1 n) ∧ decode e ≠ .instr (.devConvD2 n)) ∧
    (7 < n → decode e ≠ .instr (.devPromRead n))) ∧
  ∀ (s : State) (b : BusWord) (why : DecodeReject), s.busWord = some b → decode b.encoded = .reject why →
    step s = .fault .undefinedBusAccess

/-! ### Completion codes and whole-machine rules -/

/-- 60_exceptions.md R187: which command can complete with which code: no code outside the table, and every code of
the table occurs; any other word completes IllegalCommand. -/
def Obligations.CompletionCodesByCommand : Prop :=
  (∀ (i : Instr) (s : State), i.isCommand = true → ∃ t, exec i s = .next t ∧ codeAllowed i t.result = true) ∧
  (∀ (i : Instr) (r : ResultCode), codeAllowed i r = true → ∃ s t, exec i s = .next t ∧ t.result = r) ∧
  ∀ (s : State) (w : Byte) (ws : List Byte) (why : DecodeReject),
    s.busWord = none → s.script = w :: ws → decodeCmd w = .reject why →
      ∃ t, step s = .next t ∧ t.result = .illegalCommand

/-- 60_exceptions.md R182: a command that completes TransportError performed the failing call as its last event, was
answered `ok` in every call before it, and left the error's value in TERR. -/
def Obligations.TransportErrorIsTheLastEvent : Prop :=
  ∀ (i : Instr) (s : State), i.isCommand = true → ∃ t, exec i s = .next t ∧
    (t.result = .transportError → ∃ (before : List Event) (last : Event),
      t.trace = s.trace ++ before ++ [last] ∧
      ((∃ dev b, last = .write dev b (.err t.terr)) ∨ (∃ dev reg n, last = .read dev reg n (.err t.terr))) ∧
      ∀ e ∈ before, (∀ dev b x, e ≠ .write dev b (.err x)) ∧ (∀ dev reg n x, e ≠ .read dev reg n (.err x)))

/-- 10_state.md R32, 60_exceptions.md R186: TERR is left unchanged unless the command completes TransportError; the
device-side words leave it and RESULT unchanged. -/
def Obligations.ErrorDetailIsKept : Prop :=
  (∀ (i : Instr) (s t : State), exec i s = .next t → t.result ≠ .transportError → t.terr = s.terr) ∧
  ∀ (i : Instr) (s t : State), i.isCommand = false → exec i s = .next t → t.terr = s.terr ∧ t.result = s.result

/-- 20_memory.md R51, R53: a command adds events to the end of the trace, and only events of the kinds, registers and
widths listed for it. -/
def Obligations.EventsOfEachCommand : Prop :=
  ∀ (i : Instr) (s : State), i.isCommand = true → ∃ t evs, exec i s = .next t ∧ t.trace = s.trace ++ evs ∧
    ∀ e ∈ evs, eventAllowed i e = true

/-- 10_state.md R21 to R24: no instruction other than LOADCAL and INIT writes the calibration or a CRC register. -/
def Obligations.CalibrationWriters : Prop :=
  ∀ (i : Instr) (s t : State), i ≠ .loadcal → i ≠ .init → exec i s = .next t →
    t.c = s.c ∧ t.calLoaded = s.calLoaded ∧ t.crcOk = s.crcOk ∧ t.rem = s.rem ∧ t.crcRead = s.crcRead ∧
      t.crcCalc = s.crcCalc ∧ t.crcRun = s.crcRun ∧ t.wordsRead = s.wordsRead

/-- 41_conversion_sequencer.md R110, 10_state.md R25, R26: a sample and its valid flag are written only by READ and
CONVERT of its own channel; READ P leaves FRESH_T and READ T leaves FRESH_P. -/
def Obligations.SampleWriters : Prop :=
  (∀ (i : Instr) (s t : State), i ≠ .readP → i ≠ .convertP → exec i s = .next t → t.d1 = s.d1 ∧ t.d1v = s.d1v) ∧
  (∀ (i : Instr) (s t : State), i ≠ .readT → i ≠ .convertT → exec i s = .next t → t.d2 = s.d2 ∧ t.d2v = s.d2v) ∧
  ∀ s t : State, (exec .readP s = .next t → t.freshT = s.freshT) ∧ (exec .readT s = .next t → t.freshP = s.freshP)

/-- 10_state.md R27, R31: the outputs and OUT_VALID are written only by GETREADING, WATER only by SETWATER. -/
def Obligations.OutputAndWaterWriters : Prop :=
  (∀ (i : Instr) (s t : State), i ≠ .getreading → exec i s = .next t →
    t.temp2 = s.temp2 ∧ t.p = s.p ∧ t.depthE10 = s.depthE10 ∧ t.outValid = s.outValid) ∧
  ∀ (i : Instr) (s t : State), i ≠ .setwaterFresh → i ≠ .setwaterSalt → exec i s = .next t → t.water = s.water

/-- 10_state.md R28 to R30, 41_conversion_sequencer.md R101: LOADCAL, SETWATER and the device-side words leave PHASE,
CH and the fresh flags; only START and CONVERT write CH; GETREADING leaves CH and the fresh flags and moves PHASE at
most from BOTH_READY to COMPENSATED. -/
def Obligations.SequencerWriters : Prop :=
  (∀ (i : Instr) (s t : State),
    (i = .loadcal ∨ i = .setwaterFresh ∨ i = .setwaterSalt ∨ i.isCommand = false) → exec i s = .next t →
      t.phase = s.phase ∧ t.ch = s.ch ∧ t.freshP = s.freshP ∧ t.freshT = s.freshT) ∧
  (∀ (i : Instr) (s t : State), i ≠ .startP → i ≠ .startT → i ≠ .convertP → i ≠ .convertT → exec i s = .next t →
    t.ch = s.ch) ∧
  ∀ s t : State, exec .getreading s = .next t → t.freshP = s.freshP ∧ t.freshT = s.freshT ∧
    (t.phase = s.phase ∨ (s.phase = .bothReady ∧ t.phase = .compensated))

/-! ### Invariants -/

/-- 10_state.md R39, R22 to R24, 20_memory.md R53: the invariants of the statements below hold after power-on reset. -/
def Obligations.InvariantsAtReset : Prop :=
  BoundaryInv State.reset ∧ VerdictInv State.reset ∧ TimedInv State.reset

/-- 10_state.md R39: every step of every state keeps the command-boundary invariants (1) to (7), and loses no valid
flag (8). -/
def Obligations.StepKeepsBoundaryInv : Prop :=
  ∀ s t : State, BoundaryInv s → step s = .next t → BoundaryInv t ∧ KeepsValidFlags s t

/-- 10_state.md R22 to R24, 40_calibration_crc.md R89, R91: every step keeps this: while CAL_LOADED is 1, REM,
CRC_READ and CRC_CALC are those of the words in C, and CRC_OK is 1 exactly if the CRC of those words is the nibble
stored in word 7. -/
def Obligations.StepKeepsVerdictInv : Prop :=
  ∀ s t : State, VerdictInv s → step s = .next t → VerdictInv t

/-- 41_conversion_sequencer.md R104, R103, 70_reset_and_hazards.md R216, R217: every step of the core's commands keeps
the trace well timed: whatever the host does and whatever the bus answers, the ADC register is read only after an
acknowledged start byte and its settling delay, and nothing comes between an acknowledged reset byte and its delay.
(The premise leaves out a device-side word performed by itself, which is the model's own, log 6.) -/
def Obligations.StepKeepsTraceTimed : Prop :=
  ∀ s t : State, s.busWord = none → TimedInv s → step s = .next t → t.busWord = none ∧ TimedInv t

/-! ### Reset and the host read port -/

/-- 10_state.md R38: after power-on reset the flags, WATER, PHASE, CH and RESULT have the values of the table. (The data
registers R38 leaves unspecified hold the values of log 1 in the model; nothing is stated of them.) -/
def Obligations.ResetValues : Prop :=
  State.reset.calLoaded = false ∧ State.reset.crcOk = false ∧ State.reset.d1v = false ∧ State.reset.d2v = false ∧
  State.reset.water = .fresh ∧ State.reset.phase = .idle ∧ State.reset.ch = .pressure ∧
  State.reset.freshP = false ∧ State.reset.freshT = false ∧ State.reset.outValid = false ∧
  State.reset.result = .ok

/-- 70_reset_and_hazards.md R210: power-on reset of any state gives the reset values and performs no event. -/
def Obligations.PowerOnResetEffect : Prop :=
  ∀ s : State, statusWord (powerOnReset s) = 0x0000#16 ∧ (powerOnReset s).trace = s.trace ∧
    BoundaryInv (powerOnReset s)

/-- 10_state.md R35: the layout of STATUS. -/
def Obligations.StatusLayout : Prop :=
  ∀ s : State,
    (statusWord s).getLsbD 0 = s.calLoaded ∧ (statusWord s).getLsbD 1 = s.crcOk ∧
    ((statusWord s).getLsbD 2 = true ↔ s.water = .salt) ∧
    (statusWord s).getLsbD 3 = s.d1v ∧ (statusWord s).getLsbD 4 = s.d2v ∧
    (statusWord s).getLsbD 5 = s.freshP ∧ (statusWord s).getLsbD 6 = s.freshT ∧
    ((statusWord s).getLsbD 7 = true ↔ s.ch = .temperature) ∧
    ((statusWord s).extractLsb' 8 3).toNat = (match s.phase with
      | .idle => 0 | .started => 1 | .settling => 2 | .resultReady => 3 | .bothReady => 4 | .compensated => 5) ∧
    (statusWord s).getLsbD 11 = s.outValid ∧
    ((statusWord s).extractLsb' 12 3).toNat = (match s.result with
      | .ok => 0 | .transportError => 1 | .integrityError => 2 | .usageError => 3 | .illegalCommand => 4) ∧
    (statusWord s).getLsbD 15 = false ∧ statusWord State.reset = 0#16

/-- 10_state.md R34: the read-out map for registers that are valid (by R20), 0 for every number not in it, and 0 in the
upper byte of CRCSTAT whether it is valid or not (93_implementation_defined.md U9). After a LOADCAL aborted at word `i`
the words `C[0..i-1]` read as newly loaded (U5). What else an invalid register reads as is a free value (log 10); nothing
is stated of it. -/
def Obligations.HostReadMap : Prop :=
  ∀ (k : Nat) (s : State),
    hostRead k 0x00#8 s = .w16 (statusWord s) ∧
    (∃ v : Word16, hostRead k 0x01#8 s = .w16 v ∧ v.extractLsb' 8 8 = 0#8) ∧
    (s.crcRun = true →
      hostRead k 0x01#8 s = .w16 ((0#8 : BitVec 8) ++ s.crcRead ++ s.crcCalc) ∧ hostRead k 0x02#8 s = .w16 s.rem) ∧
    (s.result = .transportError → hostRead k 0x03#8 s = .error s.terr) ∧
    (s.d1v = true → hostRead k 0x08#8 s = .w24 s.d1) ∧ (s.d2v = true → hostRead k 0x09#8 s = .w24 s.d2) ∧
    (s.outValid = true → hostRead k 0x0A#8 s = .w32 s.temp2 ∧ hostRead k 0x0B#8 s = .w32 s.p ∧
      hostRead k 0x0C#8 s = .w64 s.depthE10) ∧
    (∀ j : Fin 8, (s.calLoaded = true ∨ j.val < s.wordsRead) →
      hostRead k (BitVec.ofNat 8 (0x10 + j.val)) s = .w16 s.c[j]) ∧
    (∀ (i : Nat) (bytes : Nat → Byte × Byte × Byte) (e : TErr),
      i < 8 → PromAnswered s 0 i bytes → s.answerAt i (promCall i) = .err e →
        ∃ t, exec .loadcal s = .next t ∧ ∀ j : Fin 8, j.val < i →
          hostRead k (BitVec.ofNat 8 (0x10 + j.val)) t = .w16 ((bytes j.val).1 ++ (bytes j.val).2.1)) ∧
    ∀ n : Byte, ¬(n.toNat ≤ 0x03) → ¬(0x08 ≤ n.toNat ∧ n.toNat ≤ 0x0C) → ¬(0x10 ≤ n.toNat ∧ n.toNat ≤ 0x17) →
      (hostRead k n s).value = 0
end

