-- ==== Sys2Proof/Laws/State.lean ====
section
/-! SUPPORT. One lemma per field of `State` and named update of it (Machine/Ops.lean): what the field holds after the
update. All are true by unfolding, and all are simp lemmas, so that no proof unfolds a record update. -/

namespace Sys2Proof.Machine

/-! ### afterCall -/

@[simp] theorem afterCall_c (call : BusCall) (s : State) : (afterCall call s).c = s.c := rfl
@[simp] theorem afterCall_calLoaded (call : BusCall) (s : State) : (afterCall call s).calLoaded = s.calLoaded := rfl
@[simp] theorem afterCall_crcOk (call : BusCall) (s : State) : (afterCall call s).crcOk = s.crcOk := rfl
@[simp] theorem afterCall_rem (call : BusCall) (s : State) : (afterCall call s).rem = s.rem := rfl
@[simp] theorem afterCall_crcRead (call : BusCall) (s : State) : (afterCall call s).crcRead = s.crcRead := rfl
@[simp] theorem afterCall_crcCalc (call : BusCall) (s : State) : (afterCall call s).crcCalc = s.crcCalc := rfl
@[simp] theorem afterCall_d1 (call : BusCall) (s : State) : (afterCall call s).d1 = s.d1 := rfl
@[simp] theorem afterCall_d2 (call : BusCall) (s : State) : (afterCall call s).d2 = s.d2 := rfl
@[simp] theorem afterCall_d1v (call : BusCall) (s : State) : (afterCall call s).d1v = s.d1v := rfl
@[simp] theorem afterCall_d2v (call : BusCall) (s : State) : (afterCall call s).d2v = s.d2v := rfl
@[simp] theorem afterCall_water (call : BusCall) (s : State) : (afterCall call s).water = s.water := rfl
@[simp] theorem afterCall_phase (call : BusCall) (s : State) : (afterCall call s).phase = s.phase := rfl
@[simp] theorem afterCall_ch (call : BusCall) (s : State) : (afterCall call s).ch = s.ch := rfl
@[simp] theorem afterCall_freshP (call : BusCall) (s : State) : (afterCall call s).freshP = s.freshP := rfl
@[simp] theorem afterCall_freshT (call : BusCall) (s : State) : (afterCall call s).freshT = s.freshT := rfl
@[simp] theorem afterCall_temp2 (call : BusCall) (s : State) : (afterCall call s).temp2 = s.temp2 := rfl
@[simp] theorem afterCall_p (call : BusCall) (s : State) : (afterCall call s).p = s.p := rfl
@[simp] theorem afterCall_depthE10 (call : BusCall) (s : State) : (afterCall call s).depthE10 = s.depthE10 := rfl
@[simp] theorem afterCall_outValid (call : BusCall) (s : State) : (afterCall call s).outValid = s.outValid := rfl
@[simp] theorem afterCall_result (call : BusCall) (s : State) : (afterCall call s).result = s.result := rfl
@[simp] theorem afterCall_terr (call : BusCall) (s : State) : (afterCall call s).terr = s.terr := rfl
@[simp] theorem afterCall_crcRun (call : BusCall) (s : State) : (afterCall call s).crcRun = s.crcRun := rfl
@[simp] theorem afterCall_wordsRead (call : BusCall) (s : State) : (afterCall call s).wordsRead = s.wordsRead := rfl
@[simp] theorem afterCall_trace (call : BusCall) (s : State) :
    (afterCall call s).trace = s.trace ++ [busEvent call (s.answerAt 0 call)] := rfl
@[simp] theorem afterCall_calls (call : BusCall) (s : State) : (afterCall call s).calls = s.calls + 1 := rfl
@[simp] theorem afterCall_answers (call : BusCall) (s : State) : (afterCall call s).answers = s.answers.tail := rfl
@[simp] theorem afterCall_script (call : BusCall) (s : State) : (afterCall call s).script = s.script := rfl
@[simp] theorem afterCall_busWord (call : BusCall) (s : State) : (afterCall call s).busWord = s.busWord := rfl

/-! ### delay -/

@[simp] theorem delay_c (us : Nat) (s : State) : (delay us s).c = s.c := rfl
@[simp] theorem delay_calLoaded (us : Nat) (s : State) : (delay us s).calLoaded = s.calLoaded := rfl
@[simp] theorem delay_crcOk (us : Nat) (s : State) : (delay us s).crcOk = s.crcOk := rfl
@[simp] theorem delay_rem (us : Nat) (s : State) : (delay us s).rem = s.rem := rfl
@[simp] theorem delay_crcRead (us : Nat) (s : State) : (delay us s).crcRead = s.crcRead := rfl
@[simp] theorem delay_crcCalc (us : Nat) (s : State) : (delay us s).crcCalc = s.crcCalc := rfl
@[simp] theorem delay_d1 (us : Nat) (s : State) : (delay us s).d1 = s.d1 := rfl
@[simp] theorem delay_d2 (us : Nat) (s : State) : (delay us s).d2 = s.d2 := rfl
@[simp] theorem delay_d1v (us : Nat) (s : State) : (delay us s).d1v = s.d1v := rfl
@[simp] theorem delay_d2v (us : Nat) (s : State) : (delay us s).d2v = s.d2v := rfl
@[simp] theorem delay_water (us : Nat) (s : State) : (delay us s).water = s.water := rfl
@[simp] theorem delay_phase (us : Nat) (s : State) : (delay us s).phase = s.phase := rfl
@[simp] theorem delay_ch (us : Nat) (s : State) : (delay us s).ch = s.ch := rfl
@[simp] theorem delay_freshP (us : Nat) (s : State) : (delay us s).freshP = s.freshP := rfl
@[simp] theorem delay_freshT (us : Nat) (s : State) : (delay us s).freshT = s.freshT := rfl
@[simp] theorem delay_temp2 (us : Nat) (s : State) : (delay us s).temp2 = s.temp2 := rfl
@[simp] theorem delay_p (us : Nat) (s : State) : (delay us s).p = s.p := rfl
@[simp] theorem delay_depthE10 (us : Nat) (s : State) : (delay us s).depthE10 = s.depthE10 := rfl
@[simp] theorem delay_outValid (us : Nat) (s : State) : (delay us s).outValid = s.outValid := rfl
@[simp] theorem delay_result (us : Nat) (s : State) : (delay us s).result = s.result := rfl
@[simp] theorem delay_terr (us : Nat) (s : State) : (delay us s).terr = s.terr := rfl
@[simp] theorem delay_crcRun (us : Nat) (s : State) : (delay us s).crcRun = s.crcRun := rfl
@[simp] theorem delay_wordsRead (us : Nat) (s : State) : (delay us s).wordsRead = s.wordsRead := rfl
@[simp] theorem delay_trace (us : Nat) (s : State) : (delay us s).trace = s.trace ++ [.delay us] := rfl
@[simp] theorem delay_calls (us : Nat) (s : State) : (delay us s).calls = s.calls := rfl
@[simp] theorem delay_answers (us : Nat) (s : State) : (delay us s).answers = s.answers := rfl
@[simp] theorem delay_script (us : Nat) (s : State) : (delay us s).script = s.script := rfl
@[simp] theorem delay_busWord (us : Nat) (s : State) : (delay us s).busWord = s.busWord := rfl

/-! ### complete -/

@[simp] theorem complete_c (k : Completion) (s : State) : (complete k s).c = s.c := rfl
@[simp] theorem complete_calLoaded (k : Completion) (s : State) : (complete k s).calLoaded = s.calLoaded := rfl
@[simp] theorem complete_crcOk (k : Completion) (s : State) : (complete k s).crcOk = s.crcOk := rfl
@[simp] theorem complete_rem (k : Completion) (s : State) : (complete k s).rem = s.rem := rfl
@[simp] theorem complete_crcRead (k : Completion) (s : State) : (complete k s).crcRead = s.crcRead := rfl
@[simp] theorem complete_crcCalc (k : Completion) (s : State) : (complete k s).crcCalc = s.crcCalc := rfl
@[simp] theorem complete_d1 (k : Completion) (s : State) : (complete k s).d1 = s.d1 := rfl
@[simp] theorem complete_d2 (k : Completion) (s : State) : (complete k s).d2 = s.d2 := rfl
@[simp] theorem complete_d1v (k : Completion) (s : State) : (complete k s).d1v = s.d1v := rfl
@[simp] theorem complete_d2v (k : Completion) (s : State) : (complete k s).d2v = s.d2v := rfl
@[simp] theorem complete_water (k : Completion) (s : State) : (complete k s).water = s.water := rfl
@[simp] theorem complete_phase (k : Completion) (s : State) : (complete k s).phase = s.phase := rfl
@[simp] theorem complete_ch (k : Completion) (s : State) : (complete k s).ch = s.ch := rfl
@[simp] theorem complete_freshP (k : Completion) (s : State) : (complete k s).freshP = s.freshP := rfl
@[simp] theorem complete_freshT (k : Completion) (s : State) : (complete k s).freshT = s.freshT := rfl
@[simp] theorem complete_temp2 (k : Completion) (s : State) : (complete k s).temp2 = s.temp2 := rfl
@[simp] theorem complete_p (k : Completion) (s : State) : (complete k s).p = s.p := rfl
@[simp] theorem complete_depthE10 (k : Completion) (s : State) : (complete k s).depthE10 = s.depthE10 := rfl
@[simp] theorem complete_outValid (k : Completion) (s : State) : (complete k s).outValid = s.outValid := rfl
@[simp] theorem complete_result (k : Completion) (s : State) : (complete k s).result = k.resultCode := rfl
@[simp] theorem complete_terr (k : Completion) (s : State) : (complete k s).terr = k.errorOr s.terr := rfl
@[simp] theorem complete_crcRun (k : Completion) (s : State) : (complete k s).crcRun = s.crcRun := rfl
@[simp] theorem complete_wordsRead (k : Completion) (s : State) : (complete k s).wordsRead = s.wordsRead := rfl
@[simp] theorem complete_trace (k : Completion) (s : State) : (complete k s).trace = s.trace := rfl
@[simp] theorem complete_calls (k : Completion) (s : State) : (complete k s).calls = s.calls := rfl
@[simp] theorem complete_answers (k : Completion) (s : State) : (complete k s).answers = s.answers := rfl
@[simp] theorem complete_script (k : Completion) (s : State) : (complete k s).script = s.script := rfl
@[simp] theorem complete_busWord (k : Completion) (s : State) : (complete k s).busWord = s.busWord := rfl

/-! ### invalidateCal -/

@[simp] theorem invalidateCal_c (s : State) : (invalidateCal s).c = s.c := rfl
@[simp] theorem invalidateCal_calLoaded (s : State) : (invalidateCal s).calLoaded = false := rfl
@[simp] theorem invalidateCal_crcOk (s : State) : (invalidateCal s).crcOk = false := rfl
@[simp] theorem invalidateCal_rem (s : State) : (invalidateCal s).rem = s.rem := rfl
@[simp] theorem invalidateCal_crcRead (s : State) : (invalidateCal s).crcRead = s.crcRead := rfl
@[simp] theorem invalidateCal_crcCalc (s : State) : (invalidateCal s).crcCalc = s.crcCalc := rfl
@[simp] theorem invalidateCal_d1 (s : State) : (invalidateCal s).d1 = s.d1 := rfl
@[simp] theorem invalidateCal_d2 (s : State) : (invalidateCal s).d2 = s.d2 := rfl
@[simp] theorem invalidateCal_d1v (s : State) : (invalidateCal s).d1v = s.d1v := rfl
@[simp] theorem invalidateCal_d2v (s : State) : (invalidateCal s).d2v = s.d2v := rfl
@[simp] theorem invalidateCal_water (s : State) : (invalidateCal s).water = s.water := rfl
@[simp] theorem invalidateCal_phase (s : State) : (invalidateCal s).phase = s.phase := rfl
@[simp] theorem invalidateCal_ch (s : State) : (invalidateCal s).ch = s.ch := rfl
@[simp] theorem invalidateCal_freshP (s : State) : (invalidateCal s).freshP = s.freshP := rfl
@[simp] theorem invalidateCal_freshT (s : State) : (invalidateCal s).freshT = s.freshT := rfl
@[simp] theorem invalidateCal_temp2 (s : State) : (invalidateCal s).temp2 = s.temp2 := rfl
@[simp] theorem invalidateCal_p (s : State) : (invalidateCal s).p = s.p := rfl
@[simp] theorem invalidateCal_depthE10 (s : State) : (invalidateCal s).depthE10 = s.depthE10 := rfl
@[simp] theorem invalidateCal_outValid (s : State) : (invalidateCal s).outValid = s.outValid := rfl
@[simp] theorem invalidateCal_result (s : State) : (invalidateCal s).result = s.result := rfl
@[simp] theorem invalidateCal_terr (s : State) : (invalidateCal s).terr = s.terr := rfl
@[simp] theorem invalidateCal_crcRun (s : State) : (invalidateCal s).crcRun = s.crcRun := rfl
@[simp] theorem invalidateCal_wordsRead (s : State) : (invalidateCal s).wordsRead = 0 := rfl
@[simp] theorem invalidateCal_trace (s : State) : (invalidateCal s).trace = s.trace := rfl
@[simp] theorem invalidateCal_calls (s : State) : (invalidateCal s).calls = s.calls := rfl
@[simp] theorem invalidateCal_answers (s : State) : (invalidateCal s).answers = s.answers := rfl
@[simp] theorem invalidateCal_script (s : State) : (invalidateCal s).script = s.script := rfl
@[simp] theorem invalidateCal_busWord (s : State) : (invalidateCal s).busWord = s.busWord := rfl

/-! ### setC -/

@[simp] theorem setC_c (k : Nat) (v : Word16) (s : State) : (setC k v s).c = s.c.setIfInBounds k v := rfl
@[simp] theorem setC_calLoaded (k : Nat) (v : Word16) (s : State) : (setC k v s).calLoaded = s.calLoaded := rfl
@[simp] theorem setC_crcOk (k : Nat) (v : Word16) (s : State) : (setC k v s).crcOk = s.crcOk := rfl
@[simp] theorem setC_rem (k : Nat) (v : Word16) (s : State) : (setC k v s).rem = s.rem := rfl
@[simp] theorem setC_crcRead (k : Nat) (v : Word16) (s : State) : (setC k v s).crcRead = s.crcRead := rfl
@[simp] theorem setC_crcCalc (k : Nat) (v : Word16) (s : State) : (setC k v s).crcCalc = s.crcCalc := rfl
@[simp] theorem setC_d1 (k : Nat) (v : Word16) (s : State) : (setC k v s).d1 = s.d1 := rfl
@[simp] theorem setC_d2 (k : Nat) (v : Word16) (s : State) : (setC k v s).d2 = s.d2 := rfl
@[simp] theorem setC_d1v (k : Nat) (v : Word16) (s : State) : (setC k v s).d1v = s.d1v := rfl
@[simp] theorem setC_d2v (k : Nat) (v : Word16) (s : State) : (setC k v s).d2v = s.d2v := rfl
@[simp] theorem setC_water (k : Nat) (v : Word16) (s : State) : (setC k v s).water = s.water := rfl
@[simp] theorem setC_phase (k : Nat) (v : Word16) (s : State) : (setC k v s).phase = s.phase := rfl
@[simp] theorem setC_ch (k : Nat) (v : Word16) (s : State) : (setC k v s).ch = s.ch := rfl
@[simp] theorem setC_freshP (k : Nat) (v : Word16) (s : State) : (setC k v s).freshP = s.freshP := rfl
@[simp] theorem setC_freshT (k : Nat) (v : Word16) (s : State) : (setC k v s).freshT = s.freshT := rfl
@[simp] theorem setC_temp2 (k : Nat) (v : Word16) (s : State) : (setC k v s).temp2 = s.temp2 := rfl
@[simp] theorem setC_p (k : Nat) (v : Word16) (s : State) : (setC k v s).p = s.p := rfl
@[simp] theorem setC_depthE10 (k : Nat) (v : Word16) (s : State) : (setC k v s).depthE10 = s.depthE10 := rfl
@[simp] theorem setC_outValid (k : Nat) (v : Word16) (s : State) : (setC k v s).outValid = s.outValid := rfl
@[simp] theorem setC_result (k : Nat) (v : Word16) (s : State) : (setC k v s).result = s.result := rfl
@[simp] theorem setC_terr (k : Nat) (v : Word16) (s : State) : (setC k v s).terr = s.terr := rfl
@[simp] theorem setC_crcRun (k : Nat) (v : Word16) (s : State) : (setC k v s).crcRun = s.crcRun := rfl
@[simp] theorem setC_wordsRead (k : Nat) (v : Word16) (s : State) : (setC k v s).wordsRead = k + 1 := rfl
@[simp] theorem setC_trace (k : Nat) (v : Word16) (s : State) : (setC k v s).trace = s.trace := rfl
@[simp] theorem setC_calls (k : Nat) (v : Word16) (s : State) : (setC k v s).calls = s.calls := rfl
@[simp] theorem setC_answers (k : Nat) (v : Word16) (s : State) : (setC k v s).answers = s.answers := rfl
@[simp] theorem setC_script (k : Nat) (v : Word16) (s : State) : (setC k v s).script = s.script := rfl
@[simp] theorem setC_busWord (k : Nat) (v : Word16) (s : State) : (setC k v s).busWord = s.busWord := rfl

/-! ### recordCrc -/

@[simp] theorem recordCrc_c (s : State) : (recordCrc s).c = s.c := rfl
@[simp] theorem recordCrc_calLoaded (s : State) : (recordCrc s).calLoaded = true := rfl
@[simp] theorem recordCrc_crcOk (s : State) : (recordCrc s).crcOk = crcMatches s.c := rfl
@[simp] theorem recordCrc_rem (s : State) : (recordCrc s).rem = crcRemainder s.c := rfl
@[simp] theorem recordCrc_crcRead (s : State) : (recordCrc s).crcRead = storedNibble s.c := rfl
@[simp] theorem recordCrc_crcCalc (s : State) : (recordCrc s).crcCalc = crc4 s.c := rfl
@[simp] theorem recordCrc_d1 (s : State) : (recordCrc s).d1 = s.d1 := rfl
@[simp] theorem recordCrc_d2 (s : State) : (recordCrc s).d2 = s.d2 := rfl
@[simp] theorem recordCrc_d1v (s : State) : (recordCrc s).d1v = s.d1v := rfl
@[simp] theorem recordCrc_d2v (s : State) : (recordCrc s).d2v = s.d2v := rfl
@[simp] theorem recordCrc_water (s : State) : (recordCrc s).water = s.water := rfl
@[simp] theorem recordCrc_phase (s : State) : (recordCrc s).phase = s.phase := rfl
@[simp] theorem recordCrc_ch (s : State) : (recordCrc s).ch = s.ch := rfl
@[simp] theorem recordCrc_freshP (s : State) : (recordCrc s).freshP = s.freshP := rfl
@[simp] theorem recordCrc_freshT (s : State) : (recordCrc s).freshT = s.freshT := rfl
@[simp] theorem recordCrc_temp2 (s : State) : (recordCrc s).temp2 = s.temp2 := rfl
@[simp] theorem recordCrc_p (s : State) : (recordCrc s).p = s.p := rfl
@[simp] theorem recordCrc_depthE10 (s : State) : (recordCrc s).depthE10 = s.depthE10 := rfl
@[simp] theorem recordCrc_outValid (s : State) : (recordCrc s).outValid = s.outValid := rfl
@[simp] theorem recordCrc_result (s : State) : (recordCrc s).result = s.result := rfl
@[simp] theorem recordCrc_terr (s : State) : (recordCrc s).terr = s.terr := rfl
@[simp] theorem recordCrc_crcRun (s : State) : (recordCrc s).crcRun = true := rfl
@[simp] theorem recordCrc_wordsRead (s : State) : (recordCrc s).wordsRead = s.wordsRead := rfl
@[simp] theorem recordCrc_trace (s : State) : (recordCrc s).trace = s.trace := rfl
@[simp] theorem recordCrc_calls (s : State) : (recordCrc s).calls = s.calls := rfl
@[simp] theorem recordCrc_answers (s : State) : (recordCrc s).answers = s.answers := rfl
@[simp] theorem recordCrc_script (s : State) : (recordCrc s).script = s.script := rfl
@[simp] theorem recordCrc_busWord (s : State) : (recordCrc s).busWord = s.busWord := rfl

/-! ### cancelCycle -/

@[simp] theorem cancelCycle_c (s : State) : (cancelCycle s).c = s.c := rfl
@[simp] theorem cancelCycle_calLoaded (s : State) : (cancelCycle s).calLoaded = s.calLoaded := rfl
@[simp] theorem cancelCycle_crcOk (s : State) : (cancelCycle s).crcOk = s.crcOk := rfl
@[simp] theorem cancelCycle_rem (s : State) : (cancelCycle s).rem = s.rem := rfl
@[simp] theorem cancelCycle_crcRead (s : State) : (cancelCycle s).crcRead = s.crcRead := rfl
@[simp] theorem cancelCycle_crcCalc (s : State) : (cancelCycle s).crcCalc = s.crcCalc := rfl
@[simp] theorem cancelCycle_d1 (s : State) : (cancelCycle s).d1 = s.d1 := rfl
@[simp] theorem cancelCycle_d2 (s : State) : (cancelCycle s).d2 = s.d2 := rfl
@[simp] theorem cancelCycle_d1v (s : State) : (cancelCycle s).d1v = s.d1v := rfl
@[simp] theorem cancelCycle_d2v (s : State) : (cancelCycle s).d2v = s.d2v := rfl
@[simp] theorem cancelCycle_water (s : State) : (cancelCycle s).water = s.water := rfl
@[simp] theorem cancelCycle_phase (s : State) : (cancelCycle s).phase = .idle := rfl
@[simp] theorem cancelCycle_ch (s : State) : (cancelCycle s).ch = s.ch := rfl
@[simp] theorem cancelCycle_freshP (s : State) : (cancelCycle s).freshP = false := rfl
@[simp] theorem cancelCycle_freshT (s : State) : (cancelCycle s).freshT = false := rfl
@[simp] theorem cancelCycle_temp2 (s : State) : (cancelCycle s).temp2 = s.temp2 := rfl
@[simp] theorem cancelCycle_p (s : State) : (cancelCycle s).p = s.p := rfl
@[simp] theorem cancelCycle_depthE10 (s : State) : (cancelCycle s).depthE10 = s.depthE10 := rfl
@[simp] theorem cancelCycle_outValid (s : State) : (cancelCycle s).outValid = s.outValid := rfl
@[simp] theorem cancelCycle_result (s : State) : (cancelCycle s).result = s.result := rfl
@[simp] theorem cancelCycle_terr (s : State) : (cancelCycle s).terr = s.terr := rfl
@[simp] theorem cancelCycle_crcRun (s : State) : (cancelCycle s).crcRun = s.crcRun := rfl
@[simp] theorem cancelCycle_wordsRead (s : State) : (cancelCycle s).wordsRead = s.wordsRead := rfl
@[simp] theorem cancelCycle_trace (s : State) : (cancelCycle s).trace = s.trace := rfl
@[simp] theorem cancelCycle_calls (s : State) : (cancelCycle s).calls = s.calls := rfl
@[simp] theorem cancelCycle_answers (s : State) : (cancelCycle s).answers = s.answers := rfl
@[simp] theorem cancelCycle_script (s : State) : (cancelCycle s).script = s.script := rfl
@[simp] theorem cancelCycle_busWord (s : State) : (cancelCycle s).busWord = s.busWord := rfl

/-! ### beginConversion -/

@[simp] theorem beginConversion_c (ch : Channel) (s : State) : (beginConversion ch s).c = s.c := rfl
@[simp] theorem beginConversion_calLoaded (ch : Channel) (s : State) :
    (beginConversion ch s).calLoaded = s.calLoaded := rfl
@[simp] theorem beginConversion_crcOk (ch : Channel) (s : State) : (beginConversion ch s).crcOk = s.crcOk := rfl
@[simp] theorem beginConversion_rem (ch : Channel) (s : State) : (beginConversion ch s).rem = s.rem := rfl
@[simp] theorem beginConversion_crcRead (ch : Channel) (s : State) : (beginConversion ch s).crcRead = s.crcRead := rfl
@[simp] theorem beginConversion_crcCalc (ch : Channel) (s : State) : (beginConversion ch s).crcCalc = s.crcCalc := rfl
@[simp] theorem beginConversion_d1 (ch : Channel) (s : State) : (beginConversion ch s).d1 = s.d1 := rfl
@[simp] theorem beginConversion_d2 (ch : Channel) (s : State) : (beginConversion ch s).d2 = s.d2 := rfl
@[simp] theorem beginConversion_d1v (ch : Channel) (s : State) : (beginConversion ch s).d1v = s.d1v := rfl
@[simp] theorem beginConversion_d2v (ch : Channel) (s : State) : (beginConversion ch s).d2v = s.d2v := rfl
@[simp] theorem beginConversion_water (ch : Channel) (s : State) : (beginConversion ch s).water = s.water := rfl
@[simp] theorem beginConversion_phase (ch : Channel) (s : State) : (beginConversion ch s).phase = .settling := rfl
@[simp] theorem beginConversion_ch (ch : Channel) (s : State) : (beginConversion ch s).ch = ch := rfl
@[simp] theorem beginConversion_freshP (ch : Channel) (s : State) :
    (beginConversion ch s).freshP = if startsNewCycle s.phase then false else s.freshP := rfl
@[simp] theorem beginConversion_freshT (ch : Channel) (s : State) :
    (beginConversion ch s).freshT = if startsNewCycle s.phase then false else s.freshT := rfl
@[simp] theorem beginConversion_temp2 (ch : Channel) (s : State) : (beginConversion ch s).temp2 = s.temp2 := rfl
@[simp] theorem beginConversion_p (ch : Channel) (s : State) : (beginConversion ch s).p = s.p := rfl
@[simp] theorem beginConversion_depthE10 (ch : Channel) (s : State) :
    (beginConversion ch s).depthE10 = s.depthE10 := rfl
@[simp] theorem beginConversion_outValid (ch : Channel) (s : State) :
    (beginConversion ch s).outValid = s.outValid := rfl
@[simp] theorem beginConversion_result (ch : Channel) (s : State) : (beginConversion ch s).result = s.result := rfl
@[simp] theorem beginConversion_terr (ch : Channel) (s : State) : (beginConversion ch s).terr = s.terr := rfl
@[simp] theorem beginConversion_crcRun (ch : Channel) (s : State) : (beginConversion ch s).crcRun = s.crcRun := rfl
@[simp] theorem beginConversion_wordsRead (ch : Channel) (s : State) :
    (beginConversion ch s).wordsRead = s.wordsRead := rfl
@[simp] theorem beginConversion_trace (ch : Channel) (s : State) : (beginConversion ch s).trace = s.trace := rfl
@[simp] theorem beginConversion_calls (ch : Channel) (s : State) : (beginConversion ch s).calls = s.calls := rfl
@[simp] theorem beginConversion_answers (ch : Channel) (s : State) : (beginConversion ch s).answers = s.answers := rfl
@[simp] theorem beginConversion_script (ch : Channel) (s : State) : (beginConversion ch s).script = s.script := rfl
@[simp] theorem beginConversion_busWord (ch : Channel) (s : State) : (beginConversion ch s).busWord = s.busWord := rfl

/-! ### settle -/

@[simp] theorem settle_c (s : State) : (settle s).c = s.c := rfl
@[simp] theorem settle_calLoaded (s : State) : (settle s).calLoaded = s.calLoaded := rfl
@[simp] theorem settle_crcOk (s : State) : (settle s).crcOk = s.crcOk := rfl
@[simp] theorem settle_rem (s : State) : (settle s).rem = s.rem := rfl
@[simp] theorem settle_crcRead (s : State) : (settle s).crcRead = s.crcRead := rfl
@[simp] theorem settle_crcCalc (s : State) : (settle s).crcCalc = s.crcCalc := rfl
@[simp] theorem settle_d1 (s : State) : (settle s).d1 = s.d1 := rfl
@[simp] theorem settle_d2 (s : State) : (settle s).d2 = s.d2 := rfl
@[simp] theorem settle_d1v (s : State) : (settle s).d1v = s.d1v := rfl
@[simp] theorem settle_d2v (s : State) : (settle s).d2v = s.d2v := rfl
@[simp] theorem settle_water (s : State) : (settle s).water = s.water := rfl
@[simp] theorem settle_phase (s : State) : (settle s).phase = .resultReady := rfl
@[simp] theorem settle_ch (s : State) : (settle s).ch = s.ch := rfl
@[simp] theorem settle_freshP (s : State) : (settle s).freshP = s.freshP := rfl
@[simp] theorem settle_freshT (s : State) : (settle s).freshT = s.freshT := rfl
@[simp] theorem settle_temp2 (s : State) : (settle s).temp2 = s.temp2 := rfl
@[simp] theorem settle_p (s : State) : (settle s).p = s.p := rfl
@[simp] theorem settle_depthE10 (s : State) : (settle s).depthE10 = s.depthE10 := rfl
@[simp] theorem settle_outValid (s : State) : (settle s).outValid = s.outValid := rfl
@[simp] theorem settle_result (s : State) : (settle s).result = s.result := rfl
@[simp] theorem settle_terr (s : State) : (settle s).terr = s.terr := rfl
@[simp] theorem settle_crcRun (s : State) : (settle s).crcRun = s.crcRun := rfl
@[simp] theorem settle_wordsRead (s : State) : (settle s).wordsRead = s.wordsRead := rfl
@[simp] theorem settle_trace (s : State) : (settle s).trace = s.trace ++ [.delay Config.tConv] := rfl
@[simp] theorem settle_calls (s : State) : (settle s).calls = s.calls := rfl
@[simp] theorem settle_answers (s : State) : (settle s).answers = s.answers := rfl
@[simp] theorem settle_script (s : State) : (settle s).script = s.script := rfl
@[simp] theorem settle_busWord (s : State) : (settle s).busWord = s.busWord := rfl

/-! ### storeSample -/

@[simp] theorem storeSample_c (ch : Channel) (v : Word24) (s : State) : (storeSample ch v s).c = s.c := rfl
@[simp] theorem storeSample_calLoaded (ch : Channel) (v : Word24) (s : State) :
    (storeSample ch v s).calLoaded = s.calLoaded := rfl
@[simp] theorem storeSample_crcOk (ch : Channel) (v : Word24) (s : State) :
    (storeSample ch v s).crcOk = s.crcOk := rfl
@[simp] theorem storeSample_rem (ch : Channel) (v : Word24) (s : State) : (storeSample ch v s).rem = s.rem := rfl
@[simp] theorem storeSample_crcRead (ch : Channel) (v : Word24) (s : State) :
    (storeSample ch v s).crcRead = s.crcRead := rfl
@[simp] theorem storeSample_crcCalc (ch : Channel) (v : Word24) (s : State) :
    (storeSample ch v s).crcCalc = s.crcCalc := rfl
@[simp] theorem storeSample_d1 (ch : Channel) (v : Word24) (s : State) :
    (storeSample ch v s).d1 = if ch = .pressure then v else s.d1 := rfl
@[simp] theorem storeSample_d2 (ch : Channel) (v : Word24) (s : State) :
    (storeSample ch v s).d2 = if ch = .temperature then v else s.d2 := rfl
@[simp] theorem storeSample_d1v (ch : Channel) (v : Word24) (s : State) :
    (storeSample ch v s).d1v = if ch = .pressure then true else s.d1v := rfl
@[simp] theorem storeSample_d2v (ch : Channel) (v : Word24) (s : State) :
    (storeSample ch v s).d2v = if ch = .temperature then true else s.d2v := rfl
@[simp] theorem storeSample_water (ch : Channel) (v : Word24) (s : State) :
    (storeSample ch v s).water = s.water := rfl
@[simp] theorem storeSample_phase (ch : Channel) (v : Word24) (s : State) :
    (storeSample ch v s).phase = phaseAfterRead (if ch = .pressure then true else s.freshP) (if ch = .temperature then true else s.freshT) := rfl
@[simp] theorem storeSample_ch (ch : Channel) (v : Word24) (s : State) : (storeSample ch v s).ch = s.ch := rfl
@[simp] theorem storeSample_freshP (ch : Channel) (v : Word24) (s : State) :
    (storeSample ch v s).freshP = if ch = .pressure then true else s.freshP := rfl
@[simp] theorem storeSample_freshT (ch : Channel) (v : Word24) (s : State) :
    (storeSample ch v s).freshT = if ch = .temperature then true else s.freshT := rfl
@[simp] theorem storeSample_temp2 (ch : Channel) (v : Word24) (s : State) :
    (storeSample ch v s).temp2 = s.temp2 := rfl
@[simp] theorem storeSample_p (ch : Channel) (v : Word24) (s : State) : (storeSample ch v s).p = s.p := rfl
@[simp] theorem storeSample_depthE10 (ch : Channel) (v : Word24) (s : State) :
    (storeSample ch v s).depthE10 = s.depthE10 := rfl
@[simp] theorem storeSample_outValid (ch : Channel) (v : Word24) (s : State) :
    (storeSample ch v s).outValid = s.outValid := rfl
@[simp] theorem storeSample_result (ch : Channel) (v : Word24) (s : State) :
    (storeSample ch v s).result = s.result := rfl
@[simp] theorem storeSample_terr (ch : Channel) (v : Word24) (s : State) : (storeSample ch v s).terr = s.terr := rfl
@[simp] theorem storeSample_crcRun (ch : Channel) (v : Word24) (s : State) :
    (storeSample ch v s).crcRun = s.crcRun := rfl
@[simp] theorem storeSample_wordsRead (ch : Channel) (v : Word24) (s : State) :
    (storeSample ch v s).wordsRead = s.wordsRead := rfl
@[simp] theorem storeSample_trace (ch : Channel) (v : Word24) (s : State) :
    (storeSample ch v s).trace = s.trace := rfl
@[simp] theorem storeSample_calls (ch : Channel) (v : Word24) (s : State) :
    (storeSample ch v s).calls = s.calls := rfl
@[simp] theorem storeSample_answers (ch : Channel) (v : Word24) (s : State) :
    (storeSample ch v s).answers = s.answers := rfl
@[simp] theorem storeSample_script (ch : Channel) (v : Word24) (s : State) :
    (storeSample ch v s).script = s.script := rfl
@[simp] theorem storeSample_busWord (ch : Channel) (v : Word24) (s : State) :
    (storeSample ch v s).busWord = s.busWord := rfl

/-! ### setWater -/

@[simp] theorem setWater_c (m : WaterMode) (s : State) : (setWater m s).c = s.c := rfl
@[simp] theorem setWater_calLoaded (m : WaterMode) (s : State) : (setWater m s).calLoaded = s.calLoaded := rfl
@[simp] theorem setWater_crcOk (m : WaterMode) (s : State) : (setWater m s).crcOk = s.crcOk := rfl
@[simp] theorem setWater_rem (m : WaterMode) (s : State) : (setWater m s).rem = s.rem := rfl
@[simp] theorem setWater_crcRead (m : WaterMode) (s : State) : (setWater m s).crcRead = s.crcRead := rfl
@[simp] theorem setWater_crcCalc (m : WaterMode) (s : State) : (setWater m s).crcCalc = s.crcCalc := rfl
@[simp] theorem setWater_d1 (m : WaterMode) (s : State) : (setWater m s).d1 = s.d1 := rfl
@[simp] theorem setWater_d2 (m : WaterMode) (s : State) : (setWater m s).d2 = s.d2 := rfl
@[simp] theorem setWater_d1v (m : WaterMode) (s : State) : (setWater m s).d1v = s.d1v := rfl
@[simp] theorem setWater_d2v (m : WaterMode) (s : State) : (setWater m s).d2v = s.d2v := rfl
@[simp] theorem setWater_water (m : WaterMode) (s : State) : (setWater m s).water = m := rfl
@[simp] theorem setWater_phase (m : WaterMode) (s : State) : (setWater m s).phase = s.phase := rfl
@[simp] theorem setWater_ch (m : WaterMode) (s : State) : (setWater m s).ch = s.ch := rfl
@[simp] theorem setWater_freshP (m : WaterMode) (s : State) : (setWater m s).freshP = s.freshP := rfl
@[simp] theorem setWater_freshT (m : WaterMode) (s : State) : (setWater m s).freshT = s.freshT := rfl
@[simp] theorem setWater_temp2 (m : WaterMode) (s : State) : (setWater m s).temp2 = s.temp2 := rfl
@[simp] theorem setWater_p (m : WaterMode) (s : State) : (setWater m s).p = s.p := rfl
@[simp] theorem setWater_depthE10 (m : WaterMode) (s : State) : (setWater m s).depthE10 = s.depthE10 := rfl
@[simp] theorem setWater_outValid (m : WaterMode) (s : State) : (setWater m s).outValid = s.outValid := rfl
@[simp] theorem setWater_result (m : WaterMode) (s : State) : (setWater m s).result = s.result := rfl
@[simp] theorem setWater_terr (m : WaterMode) (s : State) : (setWater m s).terr = s.terr := rfl
@[simp] theorem setWater_crcRun (m : WaterMode) (s : State) : (setWater m s).crcRun = s.crcRun := rfl
@[simp] theorem setWater_wordsRead (m : WaterMode) (s : State) : (setWater m s).wordsRead = s.wordsRead := rfl
@[simp] theorem setWater_trace (m : WaterMode) (s : State) : (setWater m s).trace = s.trace := rfl
@[simp] theorem setWater_calls (m : WaterMode) (s : State) : (setWater m s).calls = s.calls := rfl
@[simp] theorem setWater_answers (m : WaterMode) (s : State) : (setWater m s).answers = s.answers := rfl
@[simp] theorem setWater_script (m : WaterMode) (s : State) : (setWater m s).script = s.script := rfl
@[simp] theorem setWater_busWord (m : WaterMode) (s : State) : (setWater m s).busWord = s.busWord := rfl

/-! ### storeReading -/

@[simp] theorem storeReading_c (r : Reading) (s : State) : (storeReading r s).c = s.c := rfl
@[simp] theorem storeReading_calLoaded (r : Reading) (s : State) : (storeReading r s).calLoaded = s.calLoaded := rfl
@[simp] theorem storeReading_crcOk (r : Reading) (s : State) : (storeReading r s).crcOk = s.crcOk := rfl
@[simp] theorem storeReading_rem (r : Reading) (s : State) : (storeReading r s).rem = s.rem := rfl
@[simp] theorem storeReading_crcRead (r : Reading) (s : State) : (storeReading r s).crcRead = s.crcRead := rfl
@[simp] theorem storeReading_crcCalc (r : Reading) (s : State) : (storeReading r s).crcCalc = s.crcCalc := rfl
@[simp] theorem storeReading_d1 (r : Reading) (s : State) : (storeReading r s).d1 = s.d1 := rfl
@[simp] theorem storeReading_d2 (r : Reading) (s : State) : (storeReading r s).d2 = s.d2 := rfl
@[simp] theorem storeReading_d1v (r : Reading) (s : State) : (storeReading r s).d1v = s.d1v := rfl
@[simp] theorem storeReading_d2v (r : Reading) (s : State) : (storeReading r s).d2v = s.d2v := rfl
@[simp] theorem storeReading_water (r : Reading) (s : State) : (storeReading r s).water = s.water := rfl
@[simp] theorem storeReading_phase (r : Reading) (s : State) :
    (storeReading r s).phase = phaseAfterReading s.phase := rfl
@[simp] theorem storeReading_ch (r : Reading) (s : State) : (storeReading r s).ch = s.ch := rfl
@[simp] theorem storeReading_freshP (r : Reading) (s : State) : (storeReading r s).freshP = s.freshP := rfl
@[simp] theorem storeReading_freshT (r : Reading) (s : State) : (storeReading r s).freshT = s.freshT := rfl
@[simp] theorem storeReading_temp2 (r : Reading) (s : State) :
    (storeReading r s).temp2 = BitVec.ofInt 32 r.temp2 := rfl
@[simp] theorem storeReading_p (r : Reading) (s : State) : (storeReading r s).p = BitVec.ofInt 32 r.p := rfl
@[simp] theorem storeReading_depthE10 (r : Reading) (s : State) :
    (storeReading r s).depthE10 = BitVec.ofInt 64 r.depthE10 := rfl
@[simp] theorem storeReading_outValid (r : Reading) (s : State) : (storeReading r s).outValid = true := rfl
@[simp] theorem storeReading_result (r : Reading) (s : State) : (storeReading r s).result = s.result := rfl
@[simp] theorem storeReading_terr (r : Reading) (s : State) : (storeReading r s).terr = s.terr := rfl
@[simp] theorem storeReading_crcRun (r : Reading) (s : State) : (storeReading r s).crcRun = s.crcRun := rfl
@[simp] theorem storeReading_wordsRead (r : Reading) (s : State) : (storeReading r s).wordsRead = s.wordsRead := rfl
@[simp] theorem storeReading_trace (r : Reading) (s : State) : (storeReading r s).trace = s.trace := rfl
@[simp] theorem storeReading_calls (r : Reading) (s : State) : (storeReading r s).calls = s.calls := rfl
@[simp] theorem storeReading_answers (r : Reading) (s : State) : (storeReading r s).answers = s.answers := rfl
@[simp] theorem storeReading_script (r : Reading) (s : State) : (storeReading r s).script = s.script := rfl
@[simp] theorem storeReading_busWord (r : Reading) (s : State) : (storeReading r s).busWord = s.busWord := rfl

end Sys2Proof.Machine
end

