-- ==== Sys2Proof/Laws/Ops.lean ====
section
/-! SUPPORT. What each shared operation can do, said once: the answers of the bus after an update, the completion of a
command, the two outcomes of each body, the loading of the PROM words, and the inversion of a step. Proofs cite these
and do not unfold the operations. -/

namespace Sys2Proof.Machine

/-! ### Answers -/

/-- The answers to come depend on the environment's fields alone. -/
theorem answerAt_congr {s t : State} (ha : t.answers = s.answers) (hc : t.calls = s.calls) (k : Nat) (call : BusCall) :
    t.answerAt k call = s.answerAt k call := by
  simp only [State.answerAt, ha, hc]

/-- A call uses up one answer. -/
@[simp] theorem answerAt_afterCall (call call' : BusCall) (s : State) (k : Nat) :
    (afterCall call s).answerAt k call' = s.answerAt (k + 1) call' := by
  simp only [State.answerAt, afterCall_answers, afterCall_calls, List.getElem?_tail]
  rw [Nat.add_assoc, Nat.add_comm 1 k]

@[simp] theorem answerAt_delay (us : Nat) (s : State) (k : Nat) (call : BusCall) :
    (delay us s).answerAt k call = s.answerAt k call := rfl
@[simp] theorem answerAt_complete (c : Completion) (s : State) (k : Nat) (call : BusCall) :
    (complete c s).answerAt k call = s.answerAt k call := rfl
@[simp] theorem answerAt_invalidateCal (s : State) (k : Nat) (call : BusCall) :
    (invalidateCal s).answerAt k call = s.answerAt k call := rfl
@[simp] theorem answerAt_setC (j : Nat) (v : Word16) (s : State) (k : Nat) (call : BusCall) :
    (setC j v s).answerAt k call = s.answerAt k call := rfl
@[simp] theorem answerAt_cancelCycle (s : State) (k : Nat) (call : BusCall) :
    (cancelCycle s).answerAt k call = s.answerAt k call := rfl
@[simp] theorem answerAt_beginConversion (ch : Channel) (s : State) (k : Nat) (call : BusCall) :
    (beginConversion ch s).answerAt k call = s.answerAt k call := rfl
@[simp] theorem answerAt_settle (s : State) (k : Nat) (call : BusCall) :
    (settle s).answerAt k call = s.answerAt k call := rfl

/-! ### Completion -/

/-- A command always gives a next state: its body's, completed. -/
theorem runCommand_eq (b : Body) (s : State) : runCommand b s = .next (complete (b s).2 (b s).1) := rfl

/-- Inversion of a command. -/
theorem runCommand_next {b : Body} {s t : State} (h : runCommand b s = .next t) : t = complete (b s).2 (b s).1 :=
  (Host.Outcome.next.inj h).symm

/-- A body and, if it would complete OK, the next. -/
theorem thenIfOk_of_ok {a b : Body} {s t : State} (h : a s = (t, .ok)) : a.thenIfOk b s = b t := by
  simp only [Body.thenIfOk, h]

/-- A body that would not complete OK ends the composition. -/
theorem thenIfOk_of_not_ok {a : Body} (b : Body) {s t : State} {k : Completion} (h : a s = (t, k)) (hk : k ≠ .ok) :
    a.thenIfOk b s = (t, k) := by
  cases k <;> simp_all [Body.thenIfOk]

/-! ### The bodies -/

/-- RESET: one write; then, if it was acknowledged, the cycle is cancelled and the delay stands. -/
theorem resetBody_cases (s : State) :
    (∃ e, s.answerAt 0 resetCall = .err e ∧ resetBody s = (afterCall resetCall s, .transportError e)) ∨
    (∃ b0 b1 b2, s.answerAt 0 resetCall = .ok b0 b1 b2 ∧
      resetBody s = (delay Config.tReset (cancelCycle (afterCall resetCall s)), .ok)) := by
  unfold resetBody
  cases h : s.answerAt 0 resetCall with
  | err e => exact .inl ⟨e, rfl, rfl⟩
  | ok b0 b1 b2 => exact .inr ⟨b0, b1, b2, rfl, rfl⟩

/-- START: one write; then, if it was acknowledged, the conversion begins and settles. -/
theorem startBody_cases (ch : Channel) (s : State) :
    (∃ e, s.answerAt 0 (startCall ch) = .err e ∧
      startBody ch s = (afterCall (startCall ch) s, .transportError e)) ∨
    (∃ b0 b1 b2, s.answerAt 0 (startCall ch) = .ok b0 b1 b2 ∧
      startBody ch s = (settle (beginConversion ch (afterCall (startCall ch) s)), .ok)) := by
  unfold startBody
  cases h : s.answerAt 0 (startCall ch) with
  | err e => exact .inl ⟨e, rfl, rfl⟩
  | ok b0 b1 b2 => exact .inr ⟨b0, b1, b2, rfl, rfl⟩

/-- READ: the permission check, then one read, then the sample is stored. -/
theorem readBody_cases (ch : Channel) (s : State) :
    (readPermitted ch s = false ∧ readBody ch s = (s, .usageError)) ∨
    (readPermitted ch s = true ∧ ∃ e, s.answerAt 0 adcCall = .err e ∧
      readBody ch s = (afterCall adcCall s, .transportError e)) ∨
    (readPermitted ch s = true ∧ ∃ b0 b1 b2, s.answerAt 0 adcCall = .ok b0 b1 b2 ∧
      readBody ch s = (storeSample ch (be24 b0 b1 b2) (afterCall adcCall s), .ok)) := by
  unfold readBody
  cases hp : readPermitted ch s with
  | false => exact .inl ⟨rfl, by simp⟩
  | true =>
    cases h : s.answerAt 0 adcCall with
    | err e => exact .inr (.inl ⟨rfl, e, rfl, by simp⟩)
    | ok b0 b1 b2 => exact .inr (.inr ⟨rfl, b0, b1, b2, rfl, by simp⟩)

/-- LOADCAL: the first failing read ends it, otherwise the CRC decides its code. -/
theorem loadcalBody_cases (s : State) :
    (∃ t e, loadWords 8 0 (invalidateCal s) = (t, some e) ∧ loadcalBody s = (t, .transportError e)) ∨
    (∃ t, loadWords 8 0 (invalidateCal s) = (t, none) ∧
      loadcalBody s = (recordCrc t, if crcMatches t.c then .ok else .integrityError)) := by
  unfold loadcalBody
  cases h : loadWords 8 0 (invalidateCal s) with
  | mk t o =>
    cases o with
    | none => exact .inr ⟨t, rfl, rfl⟩
    | some e => exact .inl ⟨t, e, rfl, rfl⟩

/-- GETREADING: the permission check, then the reading. -/
theorem getreadingBody_cases (s : State) :
    (readingPermitted s = false ∧ getreadingBody s = (s, .usageError)) ∨
    (readingPermitted s = true ∧
      getreadingBody s = (storeReading (compute (computeInput s) s.water) s, .ok)) := by
  unfold getreadingBody
  cases h : readingPermitted s with
  | false => exact .inl ⟨rfl, by simp⟩
  | true => exact .inr ⟨rfl, by simp⟩

/-! ### Loading the PROM words -/

/-- One more word, by the answer to its read. -/
theorem loadWords_succ_err {n k : Nat} {s : State} {e : TErr} (h : s.answerAt 0 (promCall k) = .err e) :
    loadWords (n + 1) k s = (afterCall (promCall k) s, some e) := by
  simp only [loadWords, h]

theorem loadWords_succ_ok {n k : Nat} {s : State} {hi lo x : Byte}
    (h : s.answerAt 0 (promCall k) = .ok hi lo x) :
    loadWords (n + 1) k s = loadWords n (k + 1) (setC k (be16 hi lo) (afterCall (promCall k) s)) := by
  simp only [loadWords, h]

/-- Whatever a property of states is, if calling and storing keep it, loading keeps it. -/
theorem loadWords_induction (P : State → Prop)
    (hcall : ∀ k s, P s → P (afterCall (promCall k) s)) (hset : ∀ k v s, P s → P (setC k v s)) :
    ∀ n k s, P s → P (loadWords n k s).1 := by
  intro n
  induction n with
  | zero => intro k s hs; exact hs
  | succ n ih =>
    intro k s hs
    cases h : s.answerAt 0 (promCall k) with
    | err e => rw [loadWords_succ_err h]; exact hcall k s hs
    | ok hi lo x => rw [loadWords_succ_ok h]; exact ih _ _ (hset _ _ _ (hcall k s hs))

/-- A load none of whose reads failed has read every word up to its last. -/
theorem loadWords_wordsRead_none :
    ∀ n k s t, loadWords n k s = (t, none) → t.wordsRead = if n = 0 then s.wordsRead else k + n := by
  intro n
  induction n with
  | zero => intro k s t h; cases h; rfl
  | succ n ih =>
    intro k s t h
    cases ha : s.answerAt 0 (promCall k) with
    | err e => rw [loadWords_succ_err ha] at h; cases h
    | ok hi lo x =>
      rw [loadWords_succ_ok ha] at h
      have := ih _ _ _ h
      rw [setC_wordsRead] at this
      rw [this]
      split <;> simp_all
      omega

/-! ### The host read port -/

/-- A word of `C` that the port may return is returned. -/
theorem hostRead_word_of_readable (k : Nat) (j : Fin 8) (s : State) (h : wordReadable j s = true) :
    hostRead k (BitVec.ofNat 8 (0x10 + j.val)) s = .w16 s.c[j] := by
  fin_cases j <;> exact congrArg ReadOut.w16 (if_pos h)

/-! ### The step -/

/-- Everything a step that answers a next state can have done: waited, run the decoded instruction, or completed an
illegal command word. -/
theorem step_cases {s t : State} (h : step s = .next t) :
    (fetch s = none ∧ t = s) ∨
    (∃ e u i, fetch s = some (e, u) ∧ decode e = .instr i ∧ exec i u = .next t) ∨
    (∃ w u why, fetch s = some (.cmd w, u) ∧ decode (.cmd w) = .reject why ∧ t = complete .illegalCommand u) := by
  unfold step at h
  cases hf : fetch s with
  | none =>
    simp only [hf] at h
    exact .inl ⟨rfl, (Host.Outcome.next.inj h).symm⟩
  | some eu =>
    obtain ⟨e, u⟩ := eu
    simp only [hf] at h
    cases hd : decode e with
    | instr i => exact .inr (.inl ⟨e, u, i, rfl, hd, by simpa only [hd] using h⟩)
    | reject why =>
      simp only [hd] at h
      cases e with
      | cmd w => exact .inr (.inr ⟨w, u, why, rfl, hd, runCommand_next h⟩)
      | ctrl b => simp [rejectWord] at h
      | reg a => simp [rejectWord] at h

/-! ### Division -/

/-- `tdiv` is the truncating division of the library. -/
theorem tdiv_eq_tdiv (a b : Int) : tdiv a b = Int.tdiv a b := by
  unfold tdiv
  split
  · rename_i h
    rw [Int.tdiv_eq_ediv_of_nonneg h]
  · rename_i h
    have h' : 0 ≤ -a := by omega
    rw [← Int.tdiv_eq_ediv_of_nonneg h', Int.neg_tdiv, Int.neg_neg]

end Sys2Proof.Machine
end

