-- ==== Sys2Proof/Laws/PerInstr.lean ====
section
/-! SUPPORT. Statements made for every instruction, one lemma per constructor. -/

namespace Sys2Proof.Laws.TableRow

/-- The row of spec/opcode_table.json an instruction belongs to: its format, its mask and its match value. -/
def row : Instr → (Byte → Encoded) × Byte × Byte
  | .init => (.cmd, 0xFF#8, 0x10#8)
  | .reset => (.cmd, 0xFF#8, 0x20#8)
  | .loadcal => (.cmd, 0xFF#8, 0x30#8)
  | .startP => (.cmd, 0xFF#8, 0x41#8)
  | .startT => (.cmd, 0xFF#8, 0x42#8)
  | .readP => (.cmd, 0xFF#8, 0x51#8)
  | .readT => (.cmd, 0xFF#8, 0x52#8)
  | .convertP => (.cmd, 0xFF#8, 0x61#8)
  | .convertT => (.cmd, 0xFF#8, 0x62#8)
  | .setwaterFresh => (.cmd, 0xFF#8, 0x71#8)
  | .setwaterSalt => (.cmd, 0xFF#8, 0x72#8)
  | .getreading => (.cmd, 0xFF#8, 0x80#8)
  | .devReset => (.ctrl, 0xFF#8, 0x1E#8)
  | .devConvD1 _ => (.ctrl, 0xF0#8, 0x40#8)
  | .devConvD2 _ => (.ctrl, 0xF0#8, 0x50#8)
  | .devPromRead _ => (.reg, 0xF1#8, 0xA0#8)
  | .devAdcRead => (.reg, 0xFF#8, 0x00#8)

/-- The encoder writes the row's format, and a word that matches the row's mask and match value. -/
def Statement (i : Instr) : Prop :=
  i.WellFormed → encode i = (row i).1 (encode i).word ∧ (encode i).word &&& (row i).2.1 = (row i).2.2

theorem init : Statement .init := fun _ => ⟨rfl, by decide⟩
theorem reset : Statement .reset := fun _ => ⟨rfl, by decide⟩
theorem loadcal : Statement .loadcal := fun _ => ⟨rfl, by decide⟩
theorem startP : Statement .startP := fun _ => ⟨rfl, by decide⟩
theorem startT : Statement .startT := fun _ => ⟨rfl, by decide⟩
theorem readP : Statement .readP := fun _ => ⟨rfl, by decide⟩
theorem readT : Statement .readT := fun _ => ⟨rfl, by decide⟩
theorem convertP : Statement .convertP := fun _ => ⟨rfl, by decide⟩
theorem convertT : Statement .convertT := fun _ => ⟨rfl, by decide⟩
theorem setwaterFresh : Statement .setwaterFresh := fun _ => ⟨rfl, by decide⟩
theorem setwaterSalt : Statement .setwaterSalt := fun _ => ⟨rfl, by decide⟩
theorem getreading : Statement .getreading := fun _ => ⟨rfl, by decide⟩
theorem devReset : Statement .devReset := fun _ => ⟨rfl, by decide⟩
theorem devConvD1 (r : Nat) : Statement (.devConvD1 r) := by
  intro h
  have h' : r ≤ 15 := of_decide_eq_true h
  refine ⟨rfl, ?_⟩
  interval_cases r <;> decide
theorem devConvD2 (r : Nat) : Statement (.devConvD2 r) := by
  intro h
  have h' : r ≤ 15 := of_decide_eq_true h
  refine ⟨rfl, ?_⟩
  interval_cases r <;> decide
theorem devPromRead (k : Nat) : Statement (.devPromRead k) := by
  intro h
  have h' : k ≤ 7 := of_decide_eq_true h
  refine ⟨rfl, ?_⟩
  interval_cases k <;> decide
theorem devAdcRead : Statement .devAdcRead := fun _ => ⟨rfl, by decide⟩

end Sys2Proof.Laws.TableRow
end

