-- ==== Sys2Proof/Tests/Slice0.lean ====
section
/-! SUPPORT. Small tests. Their expected values are taken from spec/95_test_vectors.md, whose vector is named at each,
or written out by hand from the encodings of 30_encoding.md. The `witness_` theorems show states that meet the
hypotheses of the statements, clause by clause. -/

namespace Sys2Proof.Tests

open Sys2Proof.Machine

/-! ### WellFormed: every check refuses an ill-formed term -/

theorem test_devConvD1_resolution_16_refused : Instr.wellFormed (.devConvD1 16) = false := by decide
theorem test_devConvD2_resolution_16_refused : Instr.wellFormed (.devConvD2 16) = false := by decide
theorem test_devPromRead_index_8_refused : Instr.wellFormed (.devPromRead 8) = false := by decide

/-! ### Decoding: every constructor's word, bit by bit -/

theorem test_decode_init : decode (.cmd 0b0001_0000#8) = .instr .init := by decide
theorem test_decode_reset : decode (.cmd 0b0010_0000#8) = .instr .reset := by decide
theorem test_decode_loadcal : decode (.cmd 0b0011_0000#8) = .instr .loadcal := by decide
theorem test_decode_startP : decode (.cmd 0b0100_0001#8) = .instr .startP := by decide
theorem test_decode_startT : decode (.cmd 0b0100_0010#8) = .instr .startT := by decide
theorem test_decode_readP : decode (.cmd 0b0101_0001#8) = .instr .readP := by decide
theorem test_decode_readT : decode (.cmd 0b0101_0010#8) = .instr .readT := by decide
theorem test_decode_convertP : decode (.cmd 0b0110_0001#8) = .instr .convertP := by decide
theorem test_decode_convertT : decode (.cmd 0b0110_0010#8) = .instr .convertT := by decide
theorem test_decode_setwaterFresh : decode (.cmd 0b0111_0001#8) = .instr .setwaterFresh := by decide
theorem test_decode_setwaterSalt : decode (.cmd 0b0111_0010#8) = .instr .setwaterSalt := by decide
theorem test_decode_getreading : decode (.cmd 0b1000_0000#8) = .instr .getreading := by decide
theorem test_decode_devReset : decode (.ctrl 0b0001_1110#8) = .instr .devReset := by decide
theorem test_decode_devConvD1 : decode (.ctrl 0b0100_1111#8) = .instr (.devConvD1 15) := by decide
theorem test_decode_devConvD2 : decode (.ctrl 0b0101_0010#8) = .instr (.devConvD2 2) := by decide
theorem test_decode_devPromRead : decode (.reg 0b1010_1110#8) = .instr (.devPromRead 7) := by decide
theorem test_decode_devAdcRead : decode (.reg 0b0000_0000#8) = .instr .devAdcRead := by decide

/-- T-ENC-1, spot checks. -/
theorem test_illegal_words_rejected :
    ([0x00#8, 0xFF#8, 0x40#8, 0x43#8, 0x73#8, 0x11#8, 0x81#8, 0x90#8]).all
      (fun w => (decodeCmd w).instr?.isNone) = true := by decide

/-- Neither an odd register address nor another control byte is a device-side word (20_memory.md R46, R47). -/
theorem test_other_device_words_rejected :
    decode (.reg 0xA1#8) = .reject .notARegisterAddress ∧ decode (.reg 0x9E#8) = .reject .notARegisterAddress ∧
    decode (.ctrl 0x1F#8) = .reject .notAControlByte ∧ decode (.ctrl 0x60#8) = .reject .notAControlByte := by decide

/-- The opcode table's numbering: one byte a row (log 17). -/
theorem test_decodeTableWord :
    decodeTableWord 8 0x30 = some .loadcal ∧ decodeTableWord 8 0x1E = some .devReset ∧
    decodeTableWord 8 0x48 = some (.devConvD1 8) ∧ decodeTableWord 8 0xA6 = some (.devPromRead 3) ∧
    decodeTableWord 8 0x00 = some .devAdcRead ∧ decodeTableWord 8 0xFF = none := by decide

/-- The encoding of PRG-2. -/
theorem test_assemble_PRG2 :
    assemble ["INIT", "CONVERT P", "# comment", "CONVERT T", "GETREADING", "SETWATER SALT", "GETREADING"] =
      some [0x10#8, 0x61#8, 0x62#8, 0x80#8, 0x72#8, 0x80#8] := by decide +kernel

/-! ### Bytes, division, CRC -/

/-- T-MEM-1 and T-MEM-5. -/
theorem test_big_endian : be16 0xB5#8 0xD2#8 = 0xB5D2#16 ∧ be24 0x41#8 0xC9#8 0xFE#8 = 0x41C9FE#24 := by decide

/-- T-DIV-2, T-DIV-4, T-DIV-6, T-DIV-7. -/
theorem test_tdiv : tdiv (-7) 2 = -3 ∧ tdiv (-1) (2 ^ 23) = 0 ∧ tdiv (-8398051) (2 ^ 23) = -1 ∧
    tdiv (-2808943914) (2 ^ 15) = -85722 := by decide

/-- The table of T-CRC-1. -/
def tableCrc1 : Vector Word16 8 :=
  #v[0x3132#16, 0x3334#16, 0x3536#16, 0x3738#16, 0x3940#16, 0x4142#16, 0x4344#16, 0x450B#16]

/-- The table T1 of T-CRC-3. -/
def tableT1 : Vector Word16 8 :=
  #v[0x0000#16, 0xB5D2#16, 0xA75D#16, 0x7437#16, 0x7311#16, 0x7FE9#16, 0x7183#16, 0x0006#16]

/-- T-CRC-1 and T-CRC-3. -/
theorem test_crc : crcRemainder tableCrc1 = 0xB000#16 ∧ crcMatches tableCrc1 = true ∧
    crcRemainder tableT1 = 0x6000#16 ∧ crcMatches tableT1 = true := by decide +kernel

/-- T-CRC-10, the third and the fourth bit-step of half-step 1. -/
theorem test_crc_bit_steps : crcBitStep 0xC4C8#16 = 0xB990#16 ∧ crcBitStep 0xB990#16 = 0x4320#16 := by decide

/-- T-CRC-12, one-bit tables at the positions 4, 15, 123 and 124. -/
theorem test_crc_one_bit :
    crc4 (flipBit (Vector.replicate 8 0#16) 0 11) = 0x9#4 ∧ crc4 (flipBit (Vector.replicate 8 0#16) 0 0) = 0x8#4 ∧
    crc4 (flipBit (Vector.replicate 8 0#16) 7 4) = 0x1#4 ∧ crc4 (flipBit (Vector.replicate 8 0#16) 7 3) = 0x0#4 := by
  decide +kernel

/-! ### Compute -/

/-- The inputs of the coefficient set K1. -/
def k1 (d1 d2 : Int) : ComputeInput := ⟨d1, d2, 46546, 42845, 29751, 29457, 32745, 29059⟩

/-- T-CMP-1 and T-CMP-1s. -/
theorem test_compute_nominal :
    compute (k1 4311550 8387300) .fresh = ⟨2015, 10005, -1300137900⟩ ∧
    compute (k1 4311550 8387300) .salt = ⟨2015, 10005, -1267987500⟩ := by decide

/-- T-CMP-3, the lowest branch. -/
theorem test_compute_very_low : compute (k1 4000000 7300000) .fresh = ⟨-2159, 3500, -67632663700⟩ := by decide

/-- T-CMP-5b and T-CMP-5c, the two sides of `TEMP < 2000`. -/
theorem test_compute_branch_2000 :
    tempOf (k1 4311550 8382432) = 2000 ∧ offiOf (tempOf (k1 4311550 8382432)) = 0 ∧
    tempOf (k1 4311550 8382431) = 1999 ∧ offiOf (tempOf (k1 4311550 8382431)) = 1 := by decide

/-- T-CMP-9 and T-CMP-10, the two sides of `TEMP < -1500`. -/
theorem test_compute_branch_minus_1500 :
    offiOf (tempOf (k1 4000000 7372357)) = 18375000 ∧ offiOf (tempOf (k1 4000000 7372068)) = 18385508 ∧
    sensiOf (tempOf (k1 4000000 7372068)) = 7660629 := by decide

/-! ### One step of each instruction -/

/-- The next state, if there is one. -/
def next? : Host.Outcome State Fault Refusal → Option State
  | .next t => some t
  | .fault _ => none
  | .refused _ => none

/-- The state after power-on reset with these answers fixed for the next bus calls. -/
def answered (as : List BusAnswer) : State := { State.reset with answers := as }

/-- An acknowledged write. -/
def ack : BusAnswer := .ok 0#8 0#8 0#8

/-- A transport error. -/
def err7 : BusAnswer := .err ⟨7⟩

/-- The answers that deliver these words. -/
def promAnswers (ws : List Word16) : List BusAnswer :=
  ws.map fun w => .ok (w.extractLsb' 8 8) (w.extractLsb' 0 8) 0#8

/-- A state as T-SEQ-12 has it before: RESULT_READY, CH 1, FRESH_P 1, calibration T1 valid, salt water. -/
def halfCycle (as : List BusAnswer) : State :=
  { answered as with
    phase := .resultReady, ch := .temperature, freshP := true, d1 := 7#24, d1v := true
    c := tableT1, calLoaded := true, crcOk := true, water := .salt }

/-- A state as T-SEQ-5 has it before: BOTH_READY, CH 1, both samples. -/
def bothReady (as : List BusAnswer) : State :=
  { answered as with
    phase := .bothReady, ch := .temperature, freshP := true, freshT := true
    d1 := 1#24, d2 := 2#24, d1v := true, d2v := true }

/-- A state as T-GET-5 has it before. -/
def readyToCompute : State :=
  { bothReady [] with c := tableT1, calLoaded := true, crcOk := true, d1 := 4311550#24, d2 := 8387300#24
                      ch := .pressure }

/-- RESULT, PHASE, CH and STATUS after a step that ran `w`. -/
def statusAfter (w : Byte) (s : State) : Option Word16 := (next? (step { s with script := [w] })).map statusWord

/-- PRG-1: INIT with the image T1. -/
theorem test_init_ok : statusAfter 0x10#8 (answered (ack :: promAnswers tableT1.toList)) = some 0x0003#16 := by
  decide +kernel

/-- T-INI-2: the reset is acknowledged and the first PROM read fails. -/
theorem test_init_read_fails :
    statusAfter 0x10#8 { halfCycle [ack, err7] with ch := .pressure, freshP := false, d1v := false, water := .fresh } =
      some 0x1000#16 := by decide +kernel

/-- T-SEQ-12: RESET keeps the calibration, WATER, CH and D1. -/
theorem test_reset_ok : statusAfter 0x20#8 (halfCycle [ack]) = some 0x008F#16 := by decide +kernel

/-- T-SEQ-13: RESET not acknowledged: no delay. -/
theorem test_reset_err_trace :
    (next? (exec .reset (bothReady [err7]))).map (fun t => t.trace) =
      some [.write Config.devAddr 0x1E#8 (.err ⟨7⟩)] := by rfl

/-- T-CRC-8 and T-CRC-2, by LOADCAL from POR. -/
theorem test_loadcal_verdicts :
    statusAfter 0x30#8 (answered (promAnswers (tableCrc1.set 0 0xB133#16).toList)) = some 0x0003#16 ∧
    statusAfter 0x30#8 (answered (promAnswers (tableCrc1.set 7 0x4500#16).toList)) = some 0x2001#16 := by
  decide +kernel

/-- T-CAL-2: failure at word 3. -/
theorem test_loadcal_fails_at_word_3 :
    (next? (exec .loadcal (halfCycle (promAnswers [0x1234#16, 0x5678#16, 0x9ABC#16] ++ [err7])))).map
        (fun t => (t.c, t.calLoaded, t.crcOk, t.result, t.terr)) =
      some (#v[0x1234#16, 0x5678#16, 0x9ABC#16, 0x7437#16, 0x7311#16, 0x7FE9#16, 0x7183#16, 0x0006#16],
        false, false, .transportError, ⟨7⟩) := by decide +kernel

/-- T-CAL-2 at the read port, by 93_implementation_defined.md U5: the words just read are returned. -/
theorem test_read_port_after_aborted_loadcal :
    (next? (exec .loadcal (halfCycle (promAnswers [0x1234#16, 0x5678#16, 0x9ABC#16] ++ [err7])))).map
        (fun t => [hostRead 0 0x10#8 t, hostRead 1 0x12#8 t]) =
      some [.w16 0x1234#16, .w16 0x9ABC#16] := by decide +kernel

/-- T-SEQ-5: START P begins a new cycle. -/
theorem test_startP_new_cycle : statusAfter 0x41#8 (bothReady [ack]) = some 0x0318#16 := by decide +kernel

/-- T-SEQ-3: START P not acknowledged. -/
theorem test_startP_err :
    statusAfter 0x41#8 { answered [err7] with phase := .resultReady, ch := .temperature } = some 0x1380#16 := by
  decide +kernel

/-- T-SEQ-2: START T from POR. -/
theorem test_startT_ok : statusAfter 0x42#8 (answered [ack]) = some 0x0380#16 := by decide +kernel

/-- T-SEQ-6: READ P stores the sample. -/
theorem test_readP_ok :
    (next? (exec .readP { answered [.ok 0xFF#8 0xFF#8 0xFF#8] with phase := .resultReady })).map
      (fun t => (t.d1, statusWord t)) = some (0xFFFFFF#24, 0x0028#16) := by decide +kernel

/-- T-SEQ-9a: READ P before START. -/
theorem test_readP_before_start : statusAfter 0x51#8 State.reset = some 0x3000#16 := by decide +kernel

/-- T-SEQ-7 (with T-SEQ-12's calibration and water bits, `0x0007`, on top): READ T completes the cycle. -/
theorem test_readT_completes_cycle :
    statusAfter 0x52#8 (halfCycle [.ok 0#8 0#8 0#8]) = some 0x04FF#16 := by decide +kernel

/-- T-SEQ-9b: READ T in BOTH_READY. -/
theorem test_readT_both_ready : statusAfter 0x52#8 (bothReady []) = some 0x34F8#16 := by decide +kernel

/-- PRG-2, step 2: CONVERT P. -/
theorem test_convertP_ok :
    (next? (exec .convertP { answered [ack, .ok 0x41#8 0xC9#8 0xFE#8] with calLoaded := true, crcOk := true })).map
      (fun t => (t.d1, statusWord t)) = some (4311550#24, 0x002B#16) := by decide +kernel

/-- T-SEQ-15: CONVERT P whose read fails: a new cycle, the result is still there to be read. -/
theorem test_convertP_read_fails :
    (next? (exec .convertP (bothReady [ack, err7]))).map
      (fun t => (t.phase, t.ch, t.freshP, t.freshT, t.d1)) =
        some (.resultReady, .pressure, false, false, 1#24) := by decide +kernel

/-- T-SEQ-16: CONVERT T completes the cycle. -/
theorem test_convertT_ok :
    (next? (exec .convertT { answered [ack, .ok 0x01#8 0#8 0#8] with freshP := true, d1v := true })).map
      (fun t => (t.d2, statusWord t)) = some (65536#24, 0x04F8#16) := by decide +kernel

/-- T-WAT-2. -/
theorem test_setwaterFresh : statusAfter 0x71#8 State.reset = some 0x0000#16 := by decide +kernel

/-- T-WAT-1 (PRG-2, step 5): nothing but WATER changes. -/
theorem test_setwaterSalt :
    (next? (exec .setwaterSalt { State.reset with depthE10 := BitVec.ofInt 64 (-1300137900) })).map
      (fun t => (t.water, t.depthE10.toInt)) = some (.salt, -1300137900) := by decide +kernel

/-- T-GET-5: the outputs of T-CMP-1, and COMPENSATED. -/
theorem test_getreading_ok :
    (next? (exec .getreading readyToCompute)).map
      (fun t => (t.temp2.toInt, t.p.toInt, t.depthE10.toInt, statusWord t)) =
        some (2015, 10005, -1300137900, 0x0D7B#16) := by decide +kernel

/-- T-GET-3: without a calibration. -/
theorem test_getreading_no_calibration :
    statusAfter 0x80#8 { bothReady [] with ch := .pressure } = some 0x3478#16 := by decide +kernel

/-- 30_encoding.md R65. -/
theorem test_devReset :
    (next? (exec .devReset (answered [ack]))).map (fun t => t.trace) =
      some [.write Config.devAddr 0x1E#8 .ok] := by rfl

/-- T-ENC-2, `RES = 15`, pressure. -/
theorem test_devConvD1 :
    (next? (exec (.devConvD1 15) (answered [ack]))).map (fun t => t.trace) =
      some [.write Config.devAddr 0x4F#8 .ok] := by rfl

/-- T-ENC-2, `RES = 0`, temperature. -/
theorem test_devConvD2 :
    (next? (exec (.devConvD2 0) (answered [ack]))).map (fun t => t.trace) =
      some [.write Config.devAddr 0x50#8 .ok] := by rfl

/-- T-ENC-3, word 7. -/
theorem test_devPromRead :
    (next? (exec (.devPromRead 7) (answered [.ok 0#8 6#8 0#8]))).map (fun t => t.trace) =
      some [.read Config.devAddr 0xAE#8 2 (.ok [0#8, 6#8])] := by rfl

/-- T-ENC-3, the ADC read. -/
theorem test_devAdcRead :
    (next? (exec .devAdcRead (answered [err7]))).map (fun t => t.trace) =
      some [.read Config.devAddr 0x00#8 3 (.err ⟨7⟩)] := by rfl

/-- T-ILL-1, from POR. -/
theorem test_illegal_word : statusAfter 0x43#8 State.reset = some 0x4000#16 := by decide +kernel

/-! ### Witnesses: states that meet the hypotheses of each statement, by clause -/

theorem witness_LegalCommandWords :
    0x00#8 ∉ [0x10#8, 0x20#8, 0x30#8, 0x41#8, 0x42#8, 0x51#8, 0x52#8, 0x61#8, 0x62#8, 0x71#8, 0x72#8, 0x80#8] := by
  decide

theorem witness_IllegalCommandWords :
    ({ State.reset with script := [0x40#8] } : State).busWord = none ∧
    ({ State.reset with script := [0x40#8] } : State).script = 0x40#8 :: [] ∧
    decodeCmd 0x40#8 = .reject .illegalOperandTag ∧ decodeCmd 0x00#8 = .reject .illegalOpcode ∧
    decodeCmd 0x90#8 = .reject .illegalOpcode ∧ decodeCmd 0x81#8 = .reject .operandNotZero ∧
    decodeCmd 0x7F#8 = .reject .illegalOperandTag := by decide

theorem witness_DecodeOfEncode :
    Instr.WellFormed .init ∧ Instr.WellFormed (.devConvD1 0) ∧ Instr.WellFormed (.devConvD1 15) ∧
    Instr.WellFormed (.devConvD2 15) ∧ Instr.WellFormed (.devPromRead 7) := by decide

theorem witness_EncodeOfDecode :
    decode (.cmd 0x80#8) = .instr .getreading ∧ decode (.ctrl 0x5F#8) = .instr (.devConvD2 15) ∧
    decode (.reg 0xAE#8) = .instr (.devPromRead 7) := by decide

theorem witness_ScriptEncoding :
    "# a comment".toList.head? = some '#' ∧ assemble ["INIT"] = some [0x10#8] ∧
    assemble ["CONVERT P", "#"] = some [0x61#8] := by decide +kernel

theorem witness_StepRunsDecodedInstruction :
    ({ State.reset with script := [0x20#8, 0x30#8] } : State).busWord = none ∧
    ({ State.reset with script := [0x20#8, 0x30#8] } : State).script = 0x20#8 :: [0x30#8] ∧
    decodeCmd 0x20#8 = .instr .reset ∧
    ({ State.reset with busWord := some (.reg 0xA0#8) } : State).busWord = some (.reg 0xA0#8) ∧
    decode (BusWord.reg 0xA0#8).encoded = .instr (.devPromRead 0) ∧
    State.reset.busWord = none ∧ State.reset.script = [] := by decide

theorem witness_PresentedWordIsRun :
    Instr.isCommand .getreading = true ∧ Instr.WellFormed (.devConvD2 15) ∧ Instr.isCommand (.devConvD2 15) = false ∧
    decodeCmd (encode (.devConvD2 15)).word = .reject .illegalOperandTag ∧ Instr.WellFormed .devAdcRead ∧
    Instr.isCommand .devAdcRead = false ∧ decodeCmd (encode .devAdcRead).word = .reject .illegalOpcode := by decide

theorem witness_StepNeverStops : State.reset.busWord = none ∧ (halfCycle [err7]).busWord = none := by decide

theorem witness_TruncatingDivision :
    (0 : Int) < 2 ∧ (-7 : Int) = (-3) * 2 + (-1) ∧ |(-1 : Int)| < 2 ∧ (-1 : Int).sign = (-7 : Int).sign ∧
    (-7 : Int) < 0 ∧ ¬((2 : Int) ^ 1 ∣ -7) := by decide

theorem witness_DivisionByShifting : (0 : Int) ≤ 0 ∧ (-1 : Int) < 0 := by decide

theorem witness_CrcBitStepRule : 32768 ≤ (0x8000#16).toNat ∧ (0x7FFF#16).toNat < 32768 := by decide

theorem witness_CrcByteOrder : (0 : Fin 8).val < 7 ∧ (6 : Fin 8).val < 7 := by decide

/-- A LOADCAL that loads a table that validates, and one whose table does not. -/
theorem witness_CrcIsTheBlock :
    (∃ t, exec .loadcal (answered (promAnswers tableT1.toList)) = .next t ∧ t.calLoaded = true ∧ t.crcOk = true) ∧
    ∃ t, exec .loadcal (answered (promAnswers (tableT1.set 7 7#16).toList)) = .next t ∧ t.calLoaded = true ∧
      t.crcOk = false :=
  ⟨⟨_, rfl, by decide +kernel, by decide +kernel⟩, ⟨_, rfl, by decide +kernel, by decide +kernel⟩⟩

theorem witness_SingleBitFlipsAreDetected :
    crcMatches tableCrc1 = true ∧ streamPosition 7 4 < 124 ∧ 124 ≤ streamPosition 7 3 ∧
    streamPosition 0 15 < 124 ∧ streamPosition 0 0 < 124 ∧
    streamPosition 0 15 % 15 = streamPosition 0 0 % 15 := by decide +kernel

/-- Bytes as PROM words deliver them, for the witnesses of LOADCAL and INIT. -/
def sampleBytes (k : Nat) : Byte × Byte × Byte := (BitVec.ofNat 8 (2 * k), BitVec.ofNat 8 (2 * k + 1), 0#8)

/-- Answers that deliver the first `n` of those words. -/
def sampleAnswers (n : Nat) : List BusAnswer :=
  (List.range n).map fun k => .ok (sampleBytes k).1 (sampleBytes k).2.1 (sampleBytes k).2.2

theorem witness_LoadcalLoadsAndJudges : PromAnswered (answered (sampleAnswers 8)) 0 8 sampleBytes := by
  intro k hk
  interval_cases k <;> rfl

theorem witness_LoadcalReadFails_first :
    0 < 8 ∧ PromAnswered (answered [err7]) 0 0 sampleBytes ∧ (answered [err7]).answerAt 0 (promCall 0) = .err ⟨7⟩ :=
  ⟨by decide, fun _ hk => absurd hk (Nat.not_lt_zero _), rfl⟩

theorem witness_LoadcalReadFails_last :
    7 < 8 ∧ PromAnswered (answered (sampleAnswers 7 ++ [err7])) 0 7 sampleBytes ∧
    (answered (sampleAnswers 7 ++ [err7])).answerAt 7 (promCall 7) = .err ⟨7⟩ := by
  refine ⟨by decide, ?_, rfl⟩
  intro k hk
  interval_cases k <;> rfl

theorem witness_ResetEffect :
    (answered [err7]).answerAt 0 (.write Config.devAddr 0x1E#8) = .err ⟨7⟩ ∧
    (answered [ack]).answerAt 0 (.write Config.devAddr 0x1E#8) = .ok 0#8 0#8 0#8 := ⟨rfl, rfl⟩

theorem witness_StartEffect :
    (bothReady [err7]).answerAt 0 (.write Config.devAddr (startByte .pressure)) = .err ⟨7⟩ ∧
    (bothReady [ack]).answerAt 0 (.write Config.devAddr (startByte .temperature)) = .ok 0#8 0#8 0#8 := ⟨rfl, rfl⟩

/-- A settled pressure conversion. -/
def settledP (as : List BusAnswer) : State := { answered as with phase := .resultReady, ch := .pressure }

theorem witness_ReadEffect_err :
    (halfCycle [err7]).phase = .resultReady ∧ (halfCycle [err7]).ch = .temperature ∧
    (halfCycle [err7]).answerAt 0 (.read Config.devAddr 0x00#8 3) = .err ⟨7⟩ := ⟨rfl, rfl, rfl⟩

theorem witness_ReadEffect_pressure :
    (settledP [.ok 1#8 2#8 3#8]).phase = .resultReady ∧ (settledP [.ok 1#8 2#8 3#8]).ch = .pressure ∧
    (settledP [.ok 1#8 2#8 3#8]).answerAt 0 (.read Config.devAddr 0x00#8 3) = .ok 1#8 2#8 3#8 := ⟨rfl, rfl, rfl⟩

theorem witness_ReadEffect_temperature :
    (halfCycle [.ok 1#8 2#8 3#8]).phase = .resultReady ∧ (halfCycle [.ok 1#8 2#8 3#8]).ch = .temperature ∧
    (halfCycle [.ok 1#8 2#8 3#8]).answerAt 0 (.read Config.devAddr 0x00#8 3) = .ok 1#8 2#8 3#8 := ⟨rfl, rfl, rfl⟩

theorem witness_ReadEffect_refused :
    ¬(State.reset.phase = .resultReady ∧ State.reset.ch = .pressure) ∧
    ¬((halfCycle []).phase = .resultReady ∧ (halfCycle []).ch = .pressure) := by decide

theorem witness_ReadBeforeStart :
    State.reset.phase = .idle ∧ (bothReady []).phase = .bothReady ∧
    ({ bothReady [] with phase := .compensated, outValid := true } : State).phase = .compensated ∧
    (halfCycle []).phase = .resultReady ∧ (halfCycle []).ch ≠ .pressure := by decide

theorem witness_ConvertEffect_write_fails :
    (bothReady [err7]).answerAt 0 (.write Config.devAddr (startByte .temperature)) = .err ⟨7⟩ := rfl

theorem witness_ConvertEffect_read_fails :
    (bothReady [ack, err7]).answerAt 0 (.write Config.devAddr (startByte .pressure)) = .ok 0#8 0#8 0#8 ∧
    (bothReady [ack, err7]).answerAt 1 (.read Config.devAddr 0x00#8 3) = .err ⟨7⟩ := ⟨rfl, rfl⟩

theorem witness_ConvertEffect_pressure :
    (bothReady [ack, .ok 1#8 2#8 3#8]).answerAt 0 (.write Config.devAddr (startByte .pressure)) = .ok 0#8 0#8 0#8 ∧
    (bothReady [ack, .ok 1#8 2#8 3#8]).answerAt 1 (.read Config.devAddr 0x00#8 3) = .ok 1#8 2#8 3#8 := ⟨rfl, rfl⟩

theorem witness_ConvertEffect_temperature :
    (halfCycle [ack, .ok 1#8 2#8 3#8]).answerAt 0 (.write Config.devAddr (startByte .temperature)) =
      .ok 0#8 0#8 0#8 ∧
    (halfCycle [ack, .ok 1#8 2#8 3#8]).answerAt 1 (.read Config.devAddr 0x00#8 3) = .ok 1#8 2#8 3#8 := ⟨rfl, rfl⟩

theorem witness_ConvertIsStartThenRead :
    (∃ t, exec (Channel.startInstr .pressure) (bothReady [ack]) = .next t ∧ t.result = .ok) ∧
    ∃ t, exec (Channel.startInstr .temperature) (bothReady [err7]) = .next t ∧ t.result = .transportError :=
  ⟨⟨_, rfl, rfl⟩, ⟨_, rfl, rfl⟩⟩

theorem witness_InitEffect_write_fails :
    (halfCycle [err7]).answerAt 0 (.write Config.devAddr 0x1E#8) = .err ⟨7⟩ := rfl

theorem witness_InitEffect_first_read_fails :
    (halfCycle [ack, err7]).answerAt 0 (.write Config.devAddr 0x1E#8) = .ok 0#8 0#8 0#8 ∧ 0 < 8 ∧
    PromAnswered (halfCycle [ack, err7]) 1 0 sampleBytes ∧
    (halfCycle [ack, err7]).answerAt (1 + 0) (promCall 0) = .err ⟨7⟩ :=
  ⟨rfl, by decide, fun _ hk => absurd hk (Nat.not_lt_zero _), rfl⟩

theorem witness_InitEffect_last_read_fails :
    (answered (ack :: sampleAnswers 7 ++ [err7])).answerAt 0 (.write Config.devAddr 0x1E#8) = .ok 0#8 0#8 0#8 ∧
    7 < 8 ∧ PromAnswered (answered (ack :: sampleAnswers 7 ++ [err7])) 1 7 sampleBytes ∧
    (answered (ack :: sampleAnswers 7 ++ [err7])).answerAt (1 + 7) (promCall 7) = .err ⟨7⟩ := by
  refine ⟨rfl, by decide, ?_, rfl⟩
  intro k hk
  interval_cases k <;> rfl

theorem witness_InitEffect_all_answered :
    (answered (ack :: sampleAnswers 8)).answerAt 0 (.write Config.devAddr 0x1E#8) = .ok 0#8 0#8 0#8 ∧
    PromAnswered (answered (ack :: sampleAnswers 8)) 1 8 sampleBytes := by
  refine ⟨rfl, ?_⟩
  intro k hk
  interval_cases k <;> rfl

theorem witness_InitIsResetThenLoadcal :
    (∃ t, exec .reset (halfCycle [ack]) = .next t ∧ t.result = .ok) ∧
    ∃ t, exec .reset (halfCycle [err7]) = .next t ∧ t.result = .transportError := ⟨⟨_, rfl, rfl⟩, ⟨_, rfl, rfl⟩⟩

theorem witness_GetreadingEffect :
    readyToCompute.calLoaded = true ∧ readyToCompute.d1v = true ∧ readyToCompute.d2v = true ∧
    ¬((halfCycle []).calLoaded = true ∧ (halfCycle []).d1v = true ∧ (halfCycle []).d2v = true) := by decide

theorem witness_BranchBoundaries :
    (2000 : Int) ≤ 2000 ∧ (-1500 : Int) ≤ -1500 ∧ (-1500 : Int) ≤ 1999 ∧ (1999 : Int) ≤ 1999 ∧
    (-1501 : Int) < -1500 ∧ (k1 4311550 8382431).c6 = 29059 := by decide

/-- The premise of `ComputeBounds` and of `SixtyFourBitsSuffice`, at both ends of the ranges. -/
theorem witness_ComputeInRange :
    (k1 4311550 8387300).InRange ∧ (⟨0, 0, 0, 0, 0, 0, 0, 0⟩ : ComputeInput).InRange ∧
    (⟨16777215, 16777215, 65535, 65535, 65535, 65535, 65535, 65535⟩ : ComputeInput).InRange := by decide

/-- The premise of `OutputRegistersAreExact` and of `DepthIsTheExactRational`, in both water types. -/
theorem witness_ReadingPermitted :
    readyToCompute.calLoaded = true ∧ readyToCompute.d1v = true ∧ readyToCompute.d2v = true ∧
    readyToCompute.water = .fresh ∧ ({ readyToCompute with water := .salt } : State).water = .salt := by decide

/-- Two states that differ in everything else, word 0 and word 7 among it. -/
theorem witness_ReadingDependsOnItsInputsOnly :
    let other : State := { readyToCompute with
      c := (tableT1.set 0 0xABCD#16).set 7 0x5A73#16, phase := .idle, crcOk := false, freshP := false }
    readyToCompute ≠ other ∧ readyToCompute.d1 = other.d1 ∧ readyToCompute.d2 = other.d2 ∧
    readyToCompute.water = other.water ∧ other.calLoaded = true ∧ other.d1v = true ∧ other.d2v = true ∧
    ∀ k : Fin 8, 1 ≤ k.val → k.val ≤ 6 → readyToCompute.c[k] = other.c[k] := by decide +kernel

theorem witness_DeviceConversionWords : 0 ≤ 15 ∧ 15 ≤ 15 := by decide

theorem witness_DevicePromWords : 0 ≤ 7 ∧ 7 ≤ 7 := by decide

theorem witness_DeviceWordsOutOfDomainStop :
    15 < 16 ∧ 7 < 8 ∧
    ({ State.reset with busWord := some (.reg 0xA1#8) } : State).busWord = some (.reg 0xA1#8) ∧
    decode (BusWord.reg 0xA1#8).encoded = .reject .notARegisterAddress ∧
    decode (BusWord.ctrl 0x1F#8).encoded = .reject .notAControlByte ∧
    decode (BusWord.ctrl 0x60#8).encoded = .reject .notAControlByte := by decide

theorem witness_CompletionCodesByCommand :
    Instr.isCommand .readP = true ∧ codeAllowed .readP .usageError = true ∧ codeAllowed .loadcal .integrityError = true ∧
    codeAllowed .getreading .transportError = false ∧ decodeCmd 0xFF#8 = .reject .illegalOpcode := by decide

/-- A command that completes TransportError after a call that was answered. -/
theorem witness_TransportErrorIsTheLastEvent :
    Instr.isCommand .convertP = true ∧
    ∃ t, exec .convertP (bothReady [ack, err7]) = .next t ∧ t.result = .transportError := ⟨rfl, _, rfl, rfl⟩

theorem witness_ErrorDetailIsKept :
    (∃ t, exec .readP { State.reset with terr := ⟨5⟩ } = .next t ∧ t.result ≠ .transportError) ∧
    Instr.isCommand .devReset = false ∧ ∃ t, exec .devReset (answered [err7]) = .next t :=
  ⟨⟨_, rfl, by decide⟩, rfl, ⟨_, rfl⟩⟩

theorem witness_EventsOfEachCommand :
    Instr.isCommand .init = true ∧ (∃ t, exec .init (answered (ack :: sampleAnswers 8)) = .next t) ∧
    eventAllowed .init (.delay 10000) = true ∧ eventAllowed .loadcal (.delay 10000) = false :=
  ⟨rfl, ⟨_, rfl⟩, by decide, by decide⟩

theorem witness_CalibrationWriters :
    Instr.reset ≠ .loadcal ∧ Instr.reset ≠ .init ∧ ∃ t, exec .reset (halfCycle [ack]) = .next t :=
  ⟨by decide, by decide, ⟨_, rfl⟩⟩

theorem witness_SampleWriters :
    (Instr.readT ≠ .readP ∧ Instr.readT ≠ .convertP ∧
      ∃ t, exec .readT (halfCycle [.ok 1#8 2#8 3#8]) = .next t ∧ t.result = .ok) ∧
    (Instr.readP ≠ .readT ∧ Instr.readP ≠ .convertT ∧
      ∃ t, exec .readP (settledP [.ok 1#8 2#8 3#8]) = .next t ∧ t.result = .ok) :=
  ⟨⟨by decide, by decide, _, rfl, rfl⟩, by decide, by decide, _, rfl, rfl⟩

theorem witness_OutputAndWaterWriters :
    Instr.startP ≠ .getreading ∧ Instr.startP ≠ .setwaterFresh ∧ Instr.startP ≠ .setwaterSalt ∧
    ∃ t, exec .startP (bothReady [ack]) = .next t := ⟨by decide, by decide, by decide, ⟨_, rfl⟩⟩

theorem witness_SequencerWriters :
    (∃ t, exec .loadcal (halfCycle [err7]) = .next t) ∧ (∃ t, exec .readT (halfCycle [ack]) = .next t) ∧
    ∃ t, exec .getreading readyToCompute = .next t ∧ t.phase = .compensated :=
  ⟨⟨_, rfl⟩, ⟨_, rfl⟩, ⟨_, rfl, rfl⟩⟩

/-- The premises of `StepKeepsBoundaryInv`, in each phase of a command boundary, with a step to take. -/
theorem witness_StepKeepsBoundaryInv :
    BoundaryInv State.reset ∧ BoundaryInv (halfCycle [ack]) ∧ BoundaryInv (bothReady [ack]) ∧
    BoundaryInv { bothReady [] with phase := .compensated, outValid := true } ∧
    ∃ t, step { bothReady [ack] with script := [0x41#8] } = .next t := ⟨by decide, by decide, by decide, by decide, _, rfl⟩

/-- The premises of `StepKeepsVerdictInv`, with a loaded calibration of each verdict. -/
theorem witness_StepKeepsVerdictInv :
    VerdictInv { State.reset with
      c := tableT1, calLoaded := true, crcOk := true, crcRun := true, rem := 0x6000#16, crcRead := 6#4, crcCalc := 6#4 } ∧
    VerdictInv { State.reset with
      c := tableT1.set 7 7#16, calLoaded := true, crcRun := true, rem := 0x6000#16, crcRead := 7#4, crcCalc := 6#4 } ∧
    ∃ t, step (answered (sampleAnswers 8)) = .next t :=
  ⟨by decide +kernel, by decide +kernel, _, rfl⟩

/-- The premises of `StepKeepsTraceTimed`, with an empty trace and with a settled conversion unread. -/
theorem witness_StepKeepsTraceTimed :
    TimedInv State.reset ∧ State.reset.busWord = none ∧
    (∃ t, step { answered [ack] with script := [0x41#8] } = .next t) ∧
    TimedInv { State.reset with
      phase := .resultReady, trace := [.write Config.devAddr 0x40#8 .ok, .delay Config.tConv] } := by
  refine ⟨rfl, rfl, ⟨_, rfl⟩, ?_⟩
  simp [TimedInv, owedAfter, Owed.after, resetByte]

theorem witness_HostReadMap :
    let s : State := { readyToCompute with crcRun := true, outValid := true }
    s.crcRun = true ∧ s.d1v = true ∧ s.d2v = true ∧ s.outValid = true ∧ s.calLoaded = true ∧
    ({ State.reset with result := .transportError } : State).result = .transportError ∧
    ¬((0x04#8).toNat ≤ 0x03) ∧ ¬(0x08 ≤ (0x07#8).toNat) ∧ ¬((0x0D#8).toNat ≤ 0x0C) ∧
    ¬(0x10 ≤ (0x0F#8).toNat) ∧ ¬((0x18#8).toNat ≤ 0x17) := by decide

/-- The premises of the clauses on an aborted LOADCAL: word 6 of seven that were read, without a loaded calibration. -/
theorem witness_HostReadMap_aborted :
    ({ State.reset with wordsRead := 7 } : State).calLoaded = false ∧
    6 < ({ State.reset with wordsRead := 7 } : State).wordsRead ∧
    7 < 8 ∧ PromAnswered (answered (sampleAnswers 7 ++ [err7])) 0 7 sampleBytes ∧
    (answered (sampleAnswers 7 ++ [err7])).answerAt 7 (promCall 7) = .err ⟨7⟩ :=
  ⟨rfl, by decide, witness_LoadcalReadFails_last⟩

end Sys2Proof.Tests
end

