-- ==== Sys2Proof/Proofs/Scope.lean ====
section
/-! PROOFS. The rules of 00_scope.md: the step's interface (R14) and truncating division (R13). The equations of
`fetch` and `step` come first, then the facts about `tdiv`, then the settled statements. -/

namespace Sys2Proof.Machine

/-! ### What `fetch` takes -/

/-- A device-side word that stands is taken before the script is looked at. -/
theorem fetch_of_busWord {s : State} {b : BusWord} (hb : s.busWord = some b) :
    fetch s = some (b.encoded, { s with busWord := none }) := by
  simp only [fetch, hb]

/-- With no device-side word standing, the script's first word is taken. -/
theorem fetch_of_script {s : State} {w : Byte} {ws : List Byte} (hb : s.busWord = none) (hw : s.script = w :: ws) :
    fetch s = some (.cmd w, { s with script := ws }) := by
  simp only [fetch, hb, hw]

/-- With neither word presented there is nothing to take. -/
theorem fetch_of_nil {s : State} (hb : s.busWord = none) (hw : s.script = []) : fetch s = none := by
  simp only [fetch, hb, hw]

/-! ### The branches of `step` -/

theorem step_of_fetch_none {s : State} (hf : fetch s = none) : step s = .next s := by
  simp only [step, hf]

theorem step_of_fetch_instr {s t : State} {e : Encoded} {i : Instr} (hf : fetch s = some (e, t))
    (hd : decode e = .instr i) : step s = exec i t := by
  simp only [step, hf, hd]

/-! ### Truncating division

`tdiv_eq_tdiv` ties `tdiv` to the library's `Int.tdiv`, whose remainder is `Int.tmod`. -/

/-- The remainder of truncating division is 0 or has the dividend's sign. -/
theorem tmod_eq_zero_or_sign_eq (a b : Int) : a.tmod b = 0 ∨ (a.tmod b).sign = a.sign := by
  by_cases hdvd : b ∣ a
  · exact .inl (Int.tmod_eq_zero_of_dvd hdvd)
  · exact .inr (by rw [Int.sign_tmod, if_neg hdvd])

/-- Existence (00_scope.md R13): `tdiv a b` has a remainder smaller than `b` that is 0 or of `a`'s sign. -/
theorem exists_tdiv_remainder (a : Int) {b : Int} (hb : 0 < b) :
    ∃ r, a = tdiv a b * b + r ∧ |r| < b ∧ (r = 0 ∨ r.sign = a.sign) := by
  refine ⟨a.tmod b, ?_, ?_, tmod_eq_zero_or_sign_eq a b⟩
  · rw [tdiv_eq_tdiv, Int.tdiv_mul_add_tmod]
  · exact abs_lt.mpr ⟨Int.lt_tmod_of_pos a hb, Int.tmod_lt_of_pos a hb⟩

/-- A remainder that is 0 or of `a`'s sign is on `a`'s side of 0. -/
theorem nonneg_of_sign_eq {a r : Int} (ha : 0 ≤ a) (hr : r = 0 ∨ r.sign = a.sign) : 0 ≤ r := by
  obtain rfl | hsign := hr
  · exact le_rfl
  · exact Int.sign_nonneg_iff.mp (hsign ▸ Int.sign_nonneg_iff.mpr ha)

theorem nonpos_of_sign_eq {a r : Int} (ha : a ≤ 0) (hr : r = 0 ∨ r.sign = a.sign) : r ≤ 0 := by
  obtain rfl | hsign := hr
  · exact le_rfl
  · exact Int.sign_nonpos_iff.mp (hsign ▸ Int.sign_nonpos_iff.mpr ha)

/-- Uniqueness (00_scope.md R13). On each side of 0 the remainder's sign makes it the library's remainder. -/
theorem eq_tdiv_of_remainder {a b q r : Int} (hb : 0 < b) (heq : a = q * b + r) (hlt : |r| < b)
    (hr : r = 0 ∨ r.sign = a.sign) : q = tdiv a b := by
  have hsum : r + b * q = a := by rw [heq]; ring
  have habs : (b.natAbs : Int) = b := Int.natAbs_of_nonneg hb.le
  obtain ⟨hlo, hhi⟩ := abs_lt.mp hlt
  rw [tdiv_eq_tdiv]
  obtain ha | ha := le_total 0 a
  · exact ((Int.tdiv_tmod_unique ha hb.ne').mpr ⟨hsum, nonneg_of_sign_eq ha hr, habs.symm ▸ hhi⟩).1.symm
  · exact ((Int.tdiv_tmod_unique' ha hb.ne').mpr ⟨hsum, habs.symm ▸ hlo, nonpos_of_sign_eq ha hr⟩).1.symm

theorem tdiv_eq_fdiv_of_nonneg {a b : Int} (hb : 0 < b) (ha : 0 ≤ a) : tdiv a b = Int.fdiv a b := by
  rw [tdiv, if_pos ha, Int.fdiv_eq_ediv_of_nonneg a hb.le]

theorem tdiv_eq_neg_fdiv_of_neg {a b : Int} (hb : 0 < b) (ha : a < 0) : tdiv a b = -(Int.fdiv (-a) b) := by
  rw [tdiv, if_neg ha.not_ge, Int.fdiv_eq_ediv_of_nonneg (-a) hb.le]

/-- A negative dividend that is no multiple of `2^k`: the arithmetic shift is the floor, one below the truncation. -/
theorem tdiv_two_pow_eq_shiftRight_add_one {a : Int} {k : Nat} (ha : a < 0) (hdvd : ¬((2 : Int) ^ k ∣ a)) :
    tdiv a (2 ^ k) = (a >>> k) + 1 := by
  have hpos : (0 : Int) < 2 ^ k := by positivity
  have hcase : ¬(0 ≤ a ∨ (2 : Int) ^ k ∣ a) := not_or.mpr ⟨ha.not_ge, hdvd⟩
  calc tdiv a (2 ^ k)
      = a / 2 ^ k + 1 := by rw [tdiv_eq_tdiv, Int.tdiv_eq_ediv, if_neg hcase, Int.sign_eq_one_of_pos hpos]
    _ = (a >>> k) + 1 := by rw [Int.shiftRight_eq_div_pow, Nat.cast_pow, Nat.cast_ofNat]

/-! ### The settled statements -/

/-- Settles O7: the word `fetch` takes decides the branch of `step`. -/
theorem stepRunsDecodedInstruction : Obligations.StepRunsDecodedInstruction :=
  ⟨fun _ _ _ _ hb hw hd => step_of_fetch_instr (fetch_of_script hb hw) hd,
    fun _ _ _ hb hd => step_of_fetch_instr (fetch_of_busWord hb) hd,
    fun _ hb hw => step_of_fetch_none (fetch_of_nil hb hw)⟩

/-- Settles O10: existence and uniqueness from the library's remainder, then the floor and the shift form. -/
theorem truncatingDivision : Obligations.TruncatingDivision :=
  ⟨fun a _ hb => exists_tdiv_remainder a hb,
    fun _ _ _ _ hb heq hlt hr => eq_tdiv_of_remainder hb heq hlt hr,
    fun _ _ hb => ⟨tdiv_eq_fdiv_of_nonneg hb, tdiv_eq_neg_fdiv_of_neg hb⟩,
    fun _ _ ha hdvd => tdiv_two_pow_eq_shiftRight_add_one ha hdvd⟩

end Sys2Proof.Machine
end

