-- ==== Sys2Proof/Proofs/State.lean ====
section
/-! PROOFS. The rules of 10_state.md: what every step keeps (R39, R22 to R24), who writes which register (R20), the
widths of the output registers (R31), the STATUS word (R35), the host read-out map (R34) and power-on reset (R38). What
an instruction can do to the state comes first, as a relation of single updates that every instruction is made of; the
invariants and the frames are then case splits over the updates. -/

namespace Sys2Proof.Machine

/-! ### What an instruction can write, said once -/

/-- One update of the registers that the instruction `i` may make before it completes (10_state.md R20, its column of
writers), with what is known of the state it is made in. -/
inductive Update (i : Instr) : State → State → Prop
  | call (call : BusCall) (s : State) : Update i s (afterCall call s)
  | cancel (hi : i = .reset ∨ i = .init) (s : State) : Update i s (delay Config.tReset (cancelCycle s))
  | convert {ch : Channel} (hi : i = ch.startInstr ∨ i = ch.convertInstr) (s : State) :
      Update i s (settle (beginConversion ch s))
  | sample {ch : Channel} (hi : i = ch.readInstr ∨ i = ch.convertInstr) (v : Word24) (s : State) :
      Update i s (storeSample ch v s)
  | invalidate (hi : i = .loadcal ∨ i = .init) (s : State) : Update i s (invalidateCal s)
  | word (hi : i = .loadcal ∨ i = .init) {s : State} (hcal : s.calLoaded = false) (k : Nat) (v : Word16) :
      Update i s (setC k v s)
  | verdict (hi : i = .loadcal ∨ i = .init) (s : State) : Update i s (recordCrc s)
  | water {m : WaterMode} (hi : i = m.setwaterInstr) (s : State) : Update i s (setWater m s)
  | reading (hi : i = .getreading) {s : State} (hp : readingPermitted s = true) :
      Update i s (storeReading (compute (computeInput s) s.water) s)

/-- Any number of updates of `i`, one after the other. -/
abbrev Updates (i : Instr) : State → State → Prop := Relation.ReflTransGen (Update i)

/-! ### Every body is made of its command's updates -/

theorem thenIfOk_updates {i : Instr} {a b : Body} (ha : ∀ s, Updates i s (a s).1) (hb : ∀ s, Updates i s (b s).1)
    (s : State) : Updates i s (a.thenIfOk b s).1 := by
  by_cases hk : (a s).2 = .ok
  · rw [thenIfOk_of_ok (Prod.ext rfl hk)]
    exact (ha s).trans (hb _)
  · rw [thenIfOk_of_not_ok b rfl hk]
    exact ha s

theorem resetBody_updates {i : Instr} (hi : i = .reset ∨ i = .init) (s : State) : Updates i s (resetBody s).1 := by
  have hcall : Updates i s (afterCall resetCall s) := .single (.call _ s)
  obtain ⟨_, _, h⟩ | ⟨_, _, _, _, h⟩ := resetBody_cases s
  · rw [h]
    exact hcall
  · rw [h]
    exact hcall.tail (.cancel hi _)

theorem startBody_updates {i : Instr} {ch : Channel} (hi : i = ch.startInstr ∨ i = ch.convertInstr) (s : State) :
    Updates i s (startBody ch s).1 := by
  have hcall : Updates i s (afterCall (startCall ch) s) := .single (.call _ s)
  obtain ⟨_, _, h⟩ | ⟨_, _, _, _, h⟩ := startBody_cases ch s
  · rw [h]
    exact hcall
  · rw [h]
    exact hcall.tail (.convert hi _)

theorem readBody_updates {i : Instr} {ch : Channel} (hi : i = ch.readInstr ∨ i = ch.convertInstr) (s : State) :
    Updates i s (readBody ch s).1 := by
  have hcall : Updates i s (afterCall adcCall s) := .single (.call _ s)
  obtain ⟨_, h⟩ | ⟨_, _, _, h⟩ | ⟨_, _, _, _, _, h⟩ := readBody_cases ch s
  · rw [h]
  · rw [h]
    exact hcall
  · rw [h]
    exact hcall.tail (.sample hi _ _)

theorem convertBody_updates (ch : Channel) : ∀ s, Updates ch.convertInstr s (convertBody ch s).1 :=
  thenIfOk_updates (startBody_updates (.inr rfl)) (readBody_updates (.inr rfl))

/-- While the words arrive CAL_LOADED is 0 (40_calibration_crc.md R81). -/
theorem loadWords_updates {i : Instr} (hi : i = .loadcal ∨ i = .init) (n k : Nat) {s u : State}
    (hu : Updates i s u) (hcal : u.calLoaded = false) : Updates i s (loadWords n k u).1 :=
  (loadWords_induction (fun u => Updates i s u ∧ u.calLoaded = false)
    (fun _ _ ⟨hu, hcal⟩ => ⟨hu.tail (.call _ _), hcal⟩)
    (fun _ _ _ ⟨hu, hcal⟩ => ⟨hu.tail (.word hi hcal _ _), hcal⟩) n k u ⟨hu, hcal⟩).1

theorem loadcalBody_updates {i : Instr} (hi : i = .loadcal ∨ i = .init) (s : State) :
    Updates i s (loadcalBody s).1 := by
  have hload := loadWords_updates hi 8 0 (.single (.invalidate hi s)) (invalidateCal_calLoaded s)
  obtain ⟨_, _, hw, h⟩ | ⟨_, hw, h⟩ := loadcalBody_cases s
  · rw [hw] at hload
    rw [h]
    exact hload
  · rw [hw] at hload
    rw [h]
    exact hload.tail (.verdict hi _)

theorem initBody_updates : ∀ s, Updates .init s (initBody s).1 :=
  thenIfOk_updates (resetBody_updates (.inr rfl)) (loadcalBody_updates (.inr rfl))

theorem getreadingBody_updates (s : State) : Updates .getreading s (getreadingBody s).1 := by
  obtain ⟨_, h⟩ | ⟨hp, h⟩ := getreadingBody_cases s
  · rw [h]
  · rw [h]
    exact .single (.reading rfl hp)

theorem setwaterBody_updates (m : WaterMode) (s : State) : Updates m.setwaterInstr s (setwaterBody m s).1 :=
  .single (.water rfl s)

/-! ### Inversion of an instruction -/

/-- A command has made updates and then completed; a device-side word has made updates only (log 6). -/
def Executed (i : Instr) (s t : State) : Prop :=
  ∃ u, Updates i s u ∧ ((i.isCommand = true ∧ ∃ k, t = complete k u) ∨ (i.isCommand = false ∧ t = u))

theorem executed_of_runCommand {i : Instr} {b : Body} {s t : State} (hi : i.isCommand = true)
    (hb : ∀ s, Updates i s (b s).1) (h : runCommand b s = .next t) : Executed i s t :=
  ⟨(b s).1, hb s, .inl ⟨hi, (b s).2, runCommand_next h⟩⟩

theorem executed_of_call {i : Instr} {s t : State} {call : BusCall} (hi : i.isCommand = false)
    (h : t = afterCall call s) : Executed i s t :=
  ⟨_, .single (.call call s), .inr ⟨hi, h⟩⟩

theorem conversionWord_next {r : Nat} {ch : Channel} {s t : State} (h : conversionWord r ch s = .next t) :
    t = afterCall (.write Config.devAddr (convByte r ch)) s := by
  unfold conversionWord at h
  split at h
  · exact (Host.Outcome.next.inj h).symm
  · cases h

theorem execDevPromRead_next {k : Nat} {s t : State} (h : execDevPromRead k s = .next t) :
    t = afterCall (promCall k) s := by
  unfold execDevPromRead at h
  split at h
  · exact (Host.Outcome.next.inj h).symm
  · cases h

/-- Everything an instruction that answers a next state can have done. -/
theorem executed_of_exec {i : Instr} {s t : State} (h : exec i s = .next t) : Executed i s t := by
  cases i with
  | init => exact executed_of_runCommand rfl initBody_updates h
  | reset => exact executed_of_runCommand rfl (resetBody_updates (.inl rfl)) h
  | loadcal => exact executed_of_runCommand rfl (loadcalBody_updates (.inl rfl)) h
  | startP => exact executed_of_runCommand rfl (startBody_updates (ch := .pressure) (.inl rfl)) h
  | startT => exact executed_of_runCommand rfl (startBody_updates (ch := .temperature) (.inl rfl)) h
  | readP => exact executed_of_runCommand rfl (readBody_updates (ch := .pressure) (.inl rfl)) h
  | readT => exact executed_of_runCommand rfl (readBody_updates (ch := .temperature) (.inl rfl)) h
  | convertP => exact executed_of_runCommand rfl (convertBody_updates .pressure) h
  | convertT => exact executed_of_runCommand rfl (convertBody_updates .temperature) h
  | setwaterFresh => exact executed_of_runCommand rfl (setwaterBody_updates .fresh) h
  | setwaterSalt => exact executed_of_runCommand rfl (setwaterBody_updates .salt) h
  | getreading => exact executed_of_runCommand rfl getreadingBody_updates h
  | devReset => exact executed_of_call rfl (Host.Outcome.next.inj h).symm
  | devConvD1 r => exact executed_of_call rfl (conversionWord_next h)
  | devConvD2 r => exact executed_of_call rfl (conversionWord_next h)
  | devPromRead k => exact executed_of_call rfl (execDevPromRead_next h)
  | devAdcRead => exact executed_of_call rfl (Host.Outcome.next.inj h).symm

theorem Updates.preserves {i : Instr} {P : State → Prop} (hupd : ∀ u v, Update i u v → P u → P v) {s t : State}
    (h : Updates i s t) (hs : P s) : P t := by
  induction h with
  | refl => exact hs
  | tail _ huv ih => exact hupd _ _ huv ih

/-- What every update of `i` and every completion keep, `i` keeps. -/
theorem exec_preserves {i : Instr} {P : State → Prop} (hupd : ∀ u v, Update i u v → P u → P v)
    (hcomplete : ∀ k u, P u → P (complete k u)) {s t : State} (h : exec i s = .next t) (hs : P s) : P t := by
  obtain ⟨u, hu, ⟨_, k, rfl⟩ | ⟨_, rfl⟩⟩ := executed_of_exec h
  · exact hcomplete k u (hu.preserves hupd hs)
  · exact hu.preserves hupd hs

/-- A part of the state that no update of `i` and no completion writes is as it was after `i`. -/
theorem exec_keeps {α : Type} {i : Instr} (f : State → α) (hupd : ∀ u v, Update i u v → f v = f u)
    (hcomplete : ∀ k u, f (complete k u) = f u) {s t : State} (h : exec i s = .next t) : f t = f s :=
  exec_preserves (P := fun v => f v = f s) (fun u v huv hu => (hupd u v huv).trans hu)
    (fun k u hu => (hcomplete k u).trans hu) h rfl

/-! ### Inversion of a step -/

/-- Fetching changes the environment's fields only. -/
theorem fetch_eq {s u : State} {e : Encoded} (h : fetch s = some (e, u)) :
    ∃ b ws, u = { s with busWord := b, script := ws } := by
  cases hb : s.busWord with
  | some b =>
    rw [fetch_of_busWord hb] at h
    cases h
    exact ⟨none, s.script, rfl⟩
  | none =>
    cases hw : s.script with
    | nil => rw [fetch_of_nil hb hw] at h; cases h
    | cons w ws =>
      rw [fetch_of_script hb hw] at h
      cases h
      exact ⟨s.busWord, ws, rfl⟩

/-- What every update, every completion and every fetch keep, a step keeps. -/
theorem step_preserves {P : State → Prop} (hupd : ∀ i u v, Update i u v → P u → P v)
    (hcomplete : ∀ k u, P u → P (complete k u)) (hfetch : ∀ u b ws, P u → P { u with busWord := b, script := ws })
    {s t : State} (h : step s = .next t) (hs : P s) : P t := by
  have hfetched : ∀ {e u}, fetch s = some (e, u) → P u := fun hf => by
    obtain ⟨b, ws, rfl⟩ := fetch_eq hf
    exact hfetch s b ws hs
  obtain ⟨_, rfl⟩ | ⟨_, _, i, hf, _, hx⟩ | ⟨_, u, _, hf, _, rfl⟩ := step_cases h
  · exact hs
  · exact exec_preserves (hupd i) hcomplete hx (hfetched hf)
  · exact hcomplete _ u (hfetched hf)

/-! ### The verdict invariant (R22 to R24) -/

/-- The verdict of the words in `C` is set up by `recordCrc` and stands until CAL_LOADED is 0; the words change only
then. -/
theorem Update.keeps_verdictInv {i : Instr} {u v : State} (h : Update i u v) (hu : VerdictInv u) : VerdictInv v := by
  cases h with
  | call | cancel | convert | sample | water | reading => exact hu
  | invalidate => exact fun hcal => nomatch hcal
  | word _ hcal => exact fun hcal' => absurd (hcal.symm.trans hcal') Bool.false_ne_true
  | verdict => exact fun _ => ⟨rfl, rfl, rfl, rfl, rfl⟩

/-! ### The command-boundary invariants (R39) -/

theorem readingPermitted_iff {s : State} :
    readingPermitted s = true ↔ s.calLoaded = true ∧ s.d1v = true ∧ s.d2v = true := by
  simp only [readingPermitted, Bool.and_eq_true, and_assoc]

/-- R39 (8): updates set the valid flags and never clear one. -/
theorem Update.keepsValidFlags {i : Instr} {u v : State} (h : Update i u v) : KeepsValidFlags u v := by
  cases h with
  | call | cancel | convert | invalidate | word | verdict | water => exact ⟨id, id, id⟩
  | reading => exact ⟨id, id, fun _ => rfl⟩
  | @sample ch => cases ch <;> simp [KeepsValidFlags]

/-- START leaves at most one fresh flag: a completed cycle is restarted (41_conversion_sequencer.md R104). -/
theorem beginConversion_not_both_fresh {s : State} (hph : BoundaryPhase s.phase) (hfresh : PhaseMatchesFresh s)
    (ch : Channel) :
    ¬((beginConversion ch s).freshP = true ∧ (beginConversion ch s).freshT = true) := by
  rw [beginConversion_freshP, beginConversion_freshT]
  obtain h | h | h | h := hph
  · rw [h]
    exact hfresh.2 (.inl h)
  · rw [h]
    exact hfresh.2 (.inr h)
  · rw [h]
    exact nofun
  · rw [h]
    exact nofun

theorem beginConversion_freshNeedsValid {s : State} (h : FreshNeedsValid s) (ch : Channel) :
    FreshNeedsValid (beginConversion ch s) := by
  simp only [FreshNeedsValid, beginConversion_freshP, beginConversion_freshT, beginConversion_d1v, beginConversion_d2v]
  split
  · exact ⟨nofun, nofun⟩
  · exact h

/-- The phase READ leaves and its fresh flags agree (41_conversion_sequencer.md R105). -/
theorem storeSample_phase_cases (ch : Channel) (v : Word24) (s : State) :
    let t := storeSample ch v s
    (t.phase = .bothReady ∧ t.freshP = true ∧ t.freshT = true) ∨
      (t.phase = .idle ∧ ¬(t.freshP = true ∧ t.freshT = true)) := by
  intro t
  have hphase : t.phase = phaseAfterRead t.freshP t.freshT := rfl
  rw [hphase, phaseAfterRead]
  cases t.freshP <;> cases t.freshT <;> decide

theorem storeSample_freshNeedsValid {s : State} (h : FreshNeedsValid s) (ch : Channel) (v : Word24) :
    FreshNeedsValid (storeSample ch v s) := by
  cases ch with
  | pressure => exact ⟨fun _ => rfl, h.2⟩
  | temperature => exact ⟨h.1, fun _ => rfl⟩

/-- GETREADING moves the phase at most from BOTH_READY to COMPENSATED (42_compensation.md R131). -/
theorem phaseAfterReading_cases (ph : Phase) :
    (ph = .bothReady ∧ phaseAfterReading ph = .compensated) ∨ (ph ≠ .bothReady ∧ phaseAfterReading ph = ph) := by
  cases ph <;> decide

theorem phaseMatchesFresh_of_idle {s : State} (hph : s.phase = .idle) (h : ¬(s.freshP = true ∧ s.freshT = true)) :
    PhaseMatchesFresh s :=
  ⟨by simp [hph], fun _ => h⟩

theorem phaseMatchesFresh_of_bothReady {s : State} (hph : s.phase = .bothReady)
    (h : s.freshP = true ∧ s.freshT = true) : PhaseMatchesFresh s :=
  ⟨fun _ => h, by simp [hph]⟩

theorem storeReading_phaseMatchesFresh {s : State} (h : PhaseMatchesFresh s) (r : Reading) :
    PhaseMatchesFresh (storeReading r s) := by
  simp only [PhaseMatchesFresh, storeReading_phase, storeReading_freshP, storeReading_freshT]
  obtain ⟨hph, hnew⟩ | ⟨_, hsame⟩ := phaseAfterReading_cases s.phase
  · rw [hnew]
    exact ⟨fun _ => h.1 (.inl hph), by simp⟩
  · rw [hsame]
    exact h

theorem storeReading_boundaryPhase {s : State} (h : BoundaryPhase s.phase) (r : Reading) :
    BoundaryPhase (storeReading r s).phase := by
  rw [storeReading_phase]
  obtain ⟨_, hnew⟩ | ⟨_, hsame⟩ := phaseAfterReading_cases s.phase
  · exact .inr (.inr (.inr hnew))
  · rwa [hsame]

/-- R39 (1) to (7), update by update: only those of the sequencer and of GETREADING touch the fresh flags, PHASE or
OUT_VALID. -/
theorem Update.keeps_boundaryInv {i : Instr} {u v : State} (h : Update i u v) (hu : BoundaryInv u) :
    BoundaryInv v := by
  obtain ⟨hcrc, hvalid, hphase, hfresh, hout⟩ := hu
  have ⟨hkeepP, hkeepT, _⟩ := h.keepsValidFlags
  cases h with
  | call | word | water => exact ⟨hcrc, hvalid, hphase, hfresh, hout⟩
  | invalidate => exact ⟨nofun, hvalid, hphase, hfresh, hout⟩
  | verdict => exact ⟨fun _ => rfl, hvalid, hphase, hfresh, hout⟩
  | cancel => exact ⟨hcrc, ⟨nofun, nofun⟩, .inl rfl, phaseMatchesFresh_of_idle rfl nofun, ⟨nofun, hout.2⟩⟩
  | @convert ch =>
    exact ⟨hcrc, beginConversion_freshNeedsValid hvalid ch, .inr (.inl rfl),
      ⟨by simp, fun _ => beginConversion_not_both_fresh hphase hfresh ch⟩, ⟨nofun, hout.2⟩⟩
  | @sample ch _ w =>
    have hout' := fun ho => And.intro (hkeepP (hout.2 ho).1) (hkeepT (hout.2 ho).2)
    have hvalid' := storeSample_freshNeedsValid hvalid ch w
    obtain ⟨hboth, hf⟩ | ⟨hidle, hf⟩ := storeSample_phase_cases ch w u
    · exact ⟨hcrc, hvalid', .inr (.inr (.inl hboth)), phaseMatchesFresh_of_bothReady hboth hf,
        ⟨fun h => (nomatch hboth.symm.trans h), hout'⟩⟩
    · exact ⟨hcrc, hvalid', .inl hidle, phaseMatchesFresh_of_idle hidle hf,
        ⟨fun h => (nomatch hidle.symm.trans h), hout'⟩⟩
  | reading _ hp =>
    exact ⟨hcrc, hvalid, storeReading_boundaryPhase hphase _, storeReading_phaseMatchesFresh hfresh _,
      ⟨fun _ => rfl, fun _ => (readingPermitted_iff.mp hp).2⟩⟩

/-! ### Who writes which part of the state (R20) -/

/-- The Calibration Store's registers (10_state.md R20), with what the model records of them. -/
def State.calibration (s : State) : Vector Word16 8 × Bool × Bool × Word16 × Nibble × Nibble × Bool × Nat :=
  (s.c, s.calLoaded, s.crcOk, s.rem, s.crcRead, s.crcCalc, s.crcRun, s.wordsRead)

/-- The sample of a channel and its valid flag (10_state.md R25, R26). -/
def State.sample (s : State) : Channel → Word24 × Bool
  | .pressure => (s.d1, s.d1v)
  | .temperature => (s.d2, s.d2v)

/-- The fresh flag of a channel (10_state.md R30). -/
def State.fresh (s : State) : Channel → Bool
  | .pressure => s.freshP
  | .temperature => s.freshT

/-- The output registers and OUT_VALID (10_state.md R31). -/
def State.outputs (s : State) : Word32 × Word32 × Word64 × Bool := (s.temp2, s.p, s.depthE10, s.outValid)

/-- PHASE, CH and the fresh flags (10_state.md R28 to R30). -/
def State.sequencer (s : State) : Phase × Channel × Bool × Bool := (s.phase, s.ch, s.freshP, s.freshT)

/-- The instructions that may write PHASE or a fresh flag (10_state.md R20, the column of writers). -/
def writesSequencer : Instr → Bool
  | .init | .reset | .startP | .startT | .readP | .readT | .convertP | .convertT | .getreading => true
  | .loadcal | .setwaterFresh | .setwaterSalt => false
  | .devReset | .devConvD1 _ | .devConvD2 _ | .devPromRead _ | .devAdcRead => false

theorem writesSequencer_eq_false_of_device {i : Instr} (h : i.isCommand = false) : writesSequencer i = false := by
  cases i with
  | devReset | devConvD1 | devConvD2 | devPromRead | devAdcRead => rfl
  | _ => cases h

section Writers
variable {i : Instr} {u v : State}

/-- RESULT and TERR are written by a completion alone (00_scope.md R14, 60_exceptions.md R190). -/
theorem Update.keeps_terr_result (h : Update i u v) : v.terr = u.terr ∧ v.result = u.result := by
  cases h <;> exact ⟨rfl, rfl⟩

theorem Update.keeps_calibration (hi : ¬(i = .loadcal ∨ i = .init)) (h : Update i u v) :
    v.calibration = u.calibration := by
  cases h with
  | invalidate hw | word hw | verdict hw => exact absurd hw hi
  | call | cancel | convert | sample | water | reading => rfl

theorem storeSample_sample_of_ne {ch ch' : Channel} (hne : ch' ≠ ch) (x : Word24) (s : State) :
    (storeSample ch' x s).sample ch = s.sample ch :=
  match ch, ch', hne with
  | .pressure, .temperature, _ => rfl
  | .temperature, .pressure, _ => rfl
  | .pressure, .pressure, hne => absurd rfl hne
  | .temperature, .temperature, hne => absurd rfl hne

theorem storeSample_fresh_of_ne {ch ch' : Channel} (hne : ch' ≠ ch) (x : Word24) (s : State) :
    (storeSample ch' x s).fresh ch = s.fresh ch :=
  match ch, ch', hne with
  | .pressure, .temperature, _ => rfl
  | .temperature, .pressure, _ => rfl
  | .pressure, .pressure, hne => absurd rfl hne
  | .temperature, .temperature, hne => absurd rfl hne

theorem Update.keeps_sample {ch : Channel} (hi : ¬(i = ch.readInstr ∨ i = ch.convertInstr)) (h : Update i u v) :
    v.sample ch = u.sample ch := by
  cases h with
  | @sample ch' hw x => exact storeSample_sample_of_ne (by rintro rfl; exact hi hw) x u
  | call | cancel | convert | invalidate | word | verdict | water | reading => cases ch <;> rfl

theorem Update.keeps_outputs (hi : i ≠ .getreading) (h : Update i u v) : v.outputs = u.outputs := by
  cases h with
  | reading hw => exact absurd hw hi
  | call | cancel | convert | sample | invalidate | word | verdict | water => rfl

theorem Update.keeps_water (hi : ∀ m : WaterMode, i ≠ m.setwaterInstr) (h : Update i u v) : v.water = u.water := by
  cases h with
  | water hw => exact absurd hw (hi _)
  | call | cancel | convert | sample | invalidate | word | verdict | reading => rfl

theorem Update.keeps_ch (hi : ∀ ch : Channel, ¬(i = ch.startInstr ∨ i = ch.convertInstr)) (h : Update i u v) :
    v.ch = u.ch := by
  cases h with
  | convert hw => exact absurd hw (hi _)
  | call | cancel | sample | invalidate | word | verdict | water | reading => rfl

theorem Update.keeps_sequencer (hi : writesSequencer i = false) (h : Update i u v) : v.sequencer = u.sequencer := by
  cases h with
  | cancel hw => obtain rfl | rfl := hw <;> cases hi
  | @convert ch hw => cases ch <;> obtain rfl | rfl := hw <;> cases hi
  | @sample ch hw => cases ch <;> obtain rfl | rfl := hw <;> cases hi
  | reading hw => subst hw; cases hi
  | call | invalidate | word | verdict | water => rfl

end Writers

/-- READ leaves the other channel's fresh flag (41_conversion_sequencer.md R110). -/
theorem readBody_fresh_of_ne {ch ch' : Channel} (hne : ch ≠ ch') (s : State) :
    (readBody ch s).1.fresh ch' = s.fresh ch' := by
  obtain ⟨_, h⟩ | ⟨_, _, _, h⟩ | ⟨_, _, _, _, _, h⟩ := readBody_cases ch s
  · rw [h]
  · rw [h]
    cases ch' <;> rfl
  · rw [h]
    exact (storeSample_fresh_of_ne hne _ _).trans (by cases ch' <;> rfl)

/-- GETREADING leaves the fresh flags and moves PHASE at most from BOTH_READY to COMPENSATED (10_state.md R20). -/
theorem getreadingBody_sequencer (s : State) :
    let t := (getreadingBody s).1
    t.freshP = s.freshP ∧ t.freshT = s.freshT ∧
      (t.phase = s.phase ∨ (s.phase = .bothReady ∧ t.phase = .compensated)) := by
  obtain ⟨_, h⟩ | ⟨_, h⟩ := getreadingBody_cases s
  · rw [h]
    exact ⟨rfl, rfl, .inl rfl⟩
  · rw [h]
    refine ⟨rfl, rfl, ?_⟩
    obtain ⟨hboth, hnew⟩ | ⟨_, hsame⟩ := phaseAfterReading_cases s.phase
    · exact .inr ⟨hboth, hnew⟩
    · exact .inl hsame

/-- No instruction but READ and CONVERT of a channel writes its sample. -/
theorem exec_keeps_sample {ch : Channel} {i : Instr} {s t : State} (hread : i ≠ ch.readInstr)
    (hconv : i ≠ ch.convertInstr) (h : exec i s = .next t) : t.sample ch = s.sample ch :=
  exec_keeps (State.sample · ch) (fun _ _ => Update.keeps_sample (not_or.mpr ⟨hread, hconv⟩))
    (fun _ _ => by cases ch <;> rfl) h

/-- Only a TransportError writes TERR (10_state.md R32). -/
theorem Completion.errorOr_of_resultCode_ne {k : Completion} (h : k.resultCode ≠ .transportError) (old : TErr) :
    k.errorOr old = old := by
  cases k with
  | transportError e => exact absurd rfl h
  | ok | integrityError | usageError | illegalCommand => rfl

theorem Updates.keeps_terr_result {i : Instr} {s u : State} (h : Updates i s u) :
    u.terr = s.terr ∧ u.result = s.result :=
  h.preserves (P := fun v => v.terr = s.terr ∧ v.result = s.result)
    (fun _ _ huv ⟨hterr, hres⟩ => huv.keeps_terr_result.imp (·.trans hterr) (·.trans hres)) ⟨rfl, rfl⟩

/-! ### The widths of the output registers (R31)

The bounds are powers of two that suffice for the widths; 42_compensation.md R149 has the exact ranges. -/

/-- A truncating quotient is at most `m` in magnitude if its dividend is at most `m` divisors. -/
theorem abs_tdiv_le {a b m : Int} (hb : 0 < b) (h : |a| ≤ m * b) : |tdiv a b| ≤ m := by
  have hquot : ∀ n : Int, 0 ≤ n → n ≤ m * b → |n / b| ≤ m := fun n hn hle => by
    rw [abs_of_nonneg (Int.ediv_nonneg hn hb.le)]
    exact Int.ediv_le_of_le_mul hb hle
  rw [abs_le'] at h
  unfold tdiv
  split
  · exact hquot a ‹_› h.1
  · rw [abs_neg]
    exact hquot (-a) (by omega) h.2

/-- The samples and coefficients of a state are in the ranges of 42_compensation.md R132. -/
theorem computeInput_inRange (s : State) : (computeInput s).InRange := by
  simp only [computeInput, ComputeInput.InRange]
  omega

section Bounds
variable {x : ComputeInput} (hx : x.InRange)
include hx

theorem abs_dTOf_le : |dTOf x| ≤ 2 ^ 24 := by
  have ⟨_, hd2, _, _, _, _, hc5, _⟩ := hx
  rw [dTOf, abs_le]
  omega

theorem abs_mul_dTOf_le {c : Int} (hc : 0 ≤ c ∧ c < 2 ^ 16) : |c * dTOf x| ≤ 2 ^ 40 := by
  have hdT := abs_dTOf_le hx
  rw [abs_mul, abs_of_nonneg hc.1]
  nlinarith [abs_nonneg (dTOf x)]

theorem abs_tempOf_le : |tempOf x| ≤ 2 ^ 18 := by
  have ⟨_, _, _, _, _, _, _, hc6⟩ := hx
  have hq : |tdiv (dTOf x * x.c6) (2 ^ 23)| ≤ 2 ^ 17 :=
    abs_tdiv_le (by norm_num) (by rw [mul_comm]; exact abs_mul_dTOf_le hx hc6)
  rw [abs_le] at hq ⊢
  rw [tempOf]
  omega

theorem abs_offOf_le : |offOf x| ≤ 2 ^ 34 := by
  have ⟨_, _, _, hc2, _, hc4, _⟩ := hx
  have hq : |tdiv (x.c4 * dTOf x) (2 ^ 7)| ≤ 2 ^ 33 := abs_tdiv_le (by norm_num) (abs_mul_dTOf_le hx hc4)
  rw [abs_le] at hq ⊢
  rw [offOf]
  omega

theorem abs_sensOf_le : |sensOf x| ≤ 2 ^ 33 := by
  have ⟨_, _, hc1, _, hc3, _⟩ := hx
  have hq : |tdiv (x.c3 * dTOf x) (2 ^ 8)| ≤ 2 ^ 32 := abs_tdiv_le (by norm_num) (abs_mul_dTOf_le hx hc3)
  rw [abs_le] at hq ⊢
  rw [sensOf]
  omega

end Bounds

theorem sq_bounds_of_abs_le {a m : Int} (h : |a| ≤ m) : 0 ≤ a ^ 2 ∧ a ^ 2 ≤ m ^ 2 :=
  ⟨sq_nonneg a, sq_le_sq' (abs_le.mp h).1 (abs_le.mp h).2⟩

theorem abs_tiOf_le (t : Int) {d : Int} (hd : |d| ≤ 2 ^ 24) : |tiOf t d| ≤ 2 ^ 17 := by
  obtain ⟨_, _⟩ := sq_bounds_of_abs_le hd
  unfold tiOf
  split
  · refine abs_tdiv_le (by norm_num) ?_
    rw [mul_assoc, ← pow_two, abs_le]
    omega
  · refine abs_tdiv_le (by norm_num) ?_
    rw [mul_assoc, ← pow_two, abs_le]
    omega

/-- Both squares of L7 to L14 (42_compensation.md R137 to R139), for a temperature in range. -/
theorem tempSquares_le {t : Int} (ht : |t| ≤ 2 ^ 18) :
    (0 ≤ (t - 2000) ^ 2 ∧ (t - 2000) ^ 2 ≤ (2 ^ 19) ^ 2) ∧ (0 ≤ (t + 1500) ^ 2 ∧ (t + 1500) ^ 2 ≤ (2 ^ 19) ^ 2) := by
  rw [abs_le] at ht
  exact ⟨sq_bounds_of_abs_le (abs_le.mpr (by omega)), sq_bounds_of_abs_le (abs_le.mpr (by omega))⟩

theorem abs_offiOf_le {t : Int} (ht : |t| ≤ 2 ^ 18) : |offiOf t| ≤ 2 ^ 42 := by
  obtain ⟨⟨_, _⟩, _, _⟩ := tempSquares_le ht
  have hlow : |tdiv (3 * (t - 2000) ^ 2) 2| ≤ 2 ^ 39 := abs_tdiv_le (by norm_num) (by rw [abs_le]; omega)
  have hhigh : |tdiv ((t - 2000) ^ 2) 16| ≤ 2 ^ 34 := abs_tdiv_le (by norm_num) (by rw [abs_le]; omega)
  rw [abs_le] at hlow hhigh ⊢
  unfold offiOf
  split_ifs <;> omega

theorem abs_sensiOf_le {t : Int} (ht : |t| ≤ 2 ^ 18) : |sensiOf t| ≤ 2 ^ 41 := by
  obtain ⟨⟨_, _⟩, _, _⟩ := tempSquares_le ht
  have hlow : |tdiv (5 * (t - 2000) ^ 2) 8| ≤ 2 ^ 38 := abs_tdiv_le (by norm_num) (by rw [abs_le]; omega)
  rw [abs_le] at hlow ⊢
  unfold sensiOf
  split_ifs <;> omega

section Outputs
variable {x : ComputeInput} (hx : x.InRange)
include hx

theorem abs_temp2Of_le : |temp2Of x| ≤ 2 ^ 19 := by
  have ht := abs_tempOf_le hx
  have hti := abs_tiOf_le (tempOf x) (abs_dTOf_le hx)
  rw [abs_le] at ht hti ⊢
  rw [temp2Of]
  omega

theorem abs_off2Of_le : |off2Of x| ≤ 2 ^ 43 := by
  have ho := abs_offOf_le hx
  have hoi := abs_offiOf_le (abs_tempOf_le hx)
  rw [abs_le] at ho hoi ⊢
  rw [off2Of]
  omega

theorem abs_sens2Of_le : |sens2Of x| ≤ 2 ^ 42 := by
  have hs := abs_sensOf_le hx
  have hsi := abs_sensiOf_le (abs_tempOf_le hx)
  rw [abs_le] at hs hsi ⊢
  rw [sens2Of]
  omega

theorem abs_pOf_le : |pOf x| ≤ 2 ^ 30 + 2 ^ 28 := by
  have hprod : |x.d1 * sens2Of x| ≤ 2 ^ 24 * 2 ^ 42 := by
    rw [abs_mul, abs_of_nonneg hx.1.1]
    exact mul_le_mul hx.1.2.le (abs_sens2Of_le hx) (abs_nonneg _) (by norm_num)
  have hq : |tdiv (x.d1 * sens2Of x) (2 ^ 21)| ≤ 2 ^ 45 :=
    abs_tdiv_le (by norm_num) (hprod.trans (by norm_num))
  have ho := abs_off2Of_le hx
  refine abs_tdiv_le (by norm_num) ?_
  rw [abs_le] at hq ho ⊢
  omega

theorem abs_depthOf_le (w : WaterMode) : |depthOf (pOf x) w| ≤ 2 ^ 60 := by
  have hp := abs_pOf_le hx
  rw [abs_le] at hp ⊢
  cases w <;> simp only [depthOf, knum] <;> omega

end Outputs

/-- What a register of `w` bits holds of an integer that fits it (10_state.md R31). -/
theorem toInt_ofInt_of_abs_lt {w : Nat} {n m : Int} (hw : 0 < w) (h : |n| ≤ m) (hm : m < 2 ^ (w - 1)) :
    (BitVec.ofInt w n).toInt = n :=
  have ⟨hlo, hhi⟩ := abs_lt.mp (h.trans_lt hm)
  BitVec.toInt_ofInt_eq_self hw hlo.le hhi

theorem exec_getreading_of_permitted {s : State} (h : readingPermitted s = true) :
    exec .getreading s = .next (complete .ok (storeReading (compute (computeInput s) s.water) s)) := by
  obtain ⟨hno, _⟩ | ⟨_, hbody⟩ := getreadingBody_cases s
  · exact absurd (hno.symm.trans h) nofun
  · exact (runCommand_eq getreadingBody s).trans (by rw [hbody])

/-! ### The STATUS word (R35) -/

theorem flagBit_getLsbD_zero (b : Bool) : (flagBit b).getLsbD 0 = b := by cases b <;> rfl

theorem waterBit_getLsbD_zero (m : WaterMode) : (waterBit m).getLsbD 0 = true ↔ m = .salt := by
  cases m <;> decide

theorem channelBit_getLsbD_zero (ch : Channel) : (channelBit ch).getLsbD 0 = true ↔ ch = .temperature := by
  cases ch <;> decide

section Status
variable (s : State)

theorem statusWord_calibrationBits :
    (statusWord s).getLsbD 0 = s.calLoaded ∧ (statusWord s).getLsbD 1 = s.crcOk := by
  simp only [statusWord, BitVec.getLsbD_append, Nat.reduceLT, Nat.reduceSub, reduceIte, flagBit_getLsbD_zero, and_self]

theorem statusWord_waterBit : (statusWord s).getLsbD 2 = (waterBit s.water).getLsbD 0 := by
  simp only [statusWord, BitVec.getLsbD_append, Nat.reduceLT, Nat.reduceSub, reduceIte]

theorem statusWord_sampleBits :
    (statusWord s).getLsbD 3 = s.d1v ∧ (statusWord s).getLsbD 4 = s.d2v ∧
    (statusWord s).getLsbD 5 = s.freshP ∧ (statusWord s).getLsbD 6 = s.freshT := by
  simp only [statusWord, BitVec.getLsbD_append, Nat.reduceLT, Nat.reduceSub, reduceIte, flagBit_getLsbD_zero, and_self]

theorem statusWord_channelBit : (statusWord s).getLsbD 7 = (channelBit s.ch).getLsbD 0 := by
  simp only [statusWord, BitVec.getLsbD_append, Nat.reduceLT, Nat.reduceSub, reduceIte]

theorem statusWord_phaseField : (statusWord s).extractLsb' 8 3 = s.phase.code := by
  simp only [statusWord, BitVec.extractLsb'_append_eq_ite, Nat.reduceLT, Nat.reduceSub, reduceDIte]
  exact BitVec.extractLsb'_eq_self

theorem statusWord_outValidBit : (statusWord s).getLsbD 11 = s.outValid := by
  simp only [statusWord, BitVec.getLsbD_append, Nat.reduceLT, Nat.reduceSub, reduceIte, flagBit_getLsbD_zero]

theorem statusWord_resultField : (statusWord s).extractLsb' 12 3 = s.result.code := by
  simp only [statusWord, BitVec.extractLsb'_append_eq_ite, Nat.reduceLT, Nat.reduceSub, reduceDIte]
  exact BitVec.extractLsb'_eq_self

theorem statusWord_reservedBit : (statusWord s).getLsbD 15 = false := by
  simp only [statusWord, BitVec.getLsbD_append, Nat.reduceLT, Nat.reduceSub, reduceIte, BitVec.getLsbD_zero]

end Status

theorem statusWord_reset : statusWord State.reset = 0#16 := by decide

/-! ### The host read port (R34) -/

theorem portWord_of_valid {w : Nat} {valid : Bool} (h : valid = true) (v : BitVec w) (k : Nat) (n : Byte) :
    portWord w valid v k n = v := if_pos h

theorem extractLsb'_and_lowByte (v : Word16) : (v &&& 0x00FF#16).extractLsb' 8 8 = 0#8 := by
  rw [BitVec.extractLsb'_and]
  exact BitVec.and_zero

theorem crcStatWord_and_lowByte (s : State) : crcStatWord s &&& 0x00FF#16 = crcStatWord s := by
  rw [crcStatWord]
  generalize s.crcRead = a
  generalize s.crcCalc = b
  revert a b
  decide

theorem hostRead_unmapped (k : Nat) {n : Byte} (s : State) (hlow : ¬n.toNat ≤ 0x03)
    (hsample : ¬(0x08 ≤ n.toNat ∧ n.toNat ≤ 0x0C)) (hcal : ¬(0x10 ≤ n.toNat ∧ n.toNat ≤ 0x17)) :
    hostRead k n s = .unmapped := by
  unfold hostRead
  split
  any_goals omega
  rfl

/-! ### The words of an aborted LOADCAL (93_implementation_defined.md U5) -/

theorem be16_eq_append (hi lo : Byte) : be16 hi lo = hi ++ lo := by
  rw [be16, BitVec.append_def, BitVec.shiftLeftZeroExtend_eq, BitVec.setWidth'_eq]

/-- Loading writes upwards from its first word. -/
theorem loadWords_c_below (n : Nat) {j : Nat} (hj : j < 8) :
    ∀ {k : Nat} (s : State), j < k → (loadWords n k s).1.c[j] = s.c[j] := by
  induction n with
  | zero => intro k s _; rfl
  | succ n ih =>
    intro k s hjk
    cases ha : s.answerAt 0 (promCall k) with
    | err e => rw [loadWords_succ_err ha]; rfl
    | ok hi lo x =>
      rw [loadWords_succ_ok ha, ih _ (by omega), setC_c, Vector.getElem_setIfInBounds, if_neg (by omega)]
      rfl

/-- The words before the first failing read have arrived, and are counted (40_calibration_crc.md R83). -/
theorem loadWords_aborted (bytes : Nat → Byte × Byte × Byte) (e : TErr) (i : Nat) :
    ∀ {n k : Nat} {s : State}, i < n → s.wordsRead = k →
      (∀ j, j < i → s.answerAt j (promCall (k + j)) = .ok (bytes (k + j)).1 (bytes (k + j)).2.1 (bytes (k + j)).2.2) →
      s.answerAt i (promCall (k + i)) = .err e →
      ∃ t, loadWords n k s = (t, some e) ∧ t.wordsRead = k + i ∧
        ∀ (j : Nat) (hj : j < 8), k ≤ j → j < k + i → t.c[j] = be16 (bytes j).1 (bytes j).2.1 := by
  induction i with
  | zero =>
    intro n k s hn hread _ herr
    obtain ⟨n, rfl⟩ := Nat.exists_eq_succ_of_ne_zero hn.ne'
    exact ⟨_, loadWords_succ_err herr, hread, fun j _ _ _ => by omega⟩
  | succ i ih =>
    intro n k s hn _ hok herr
    obtain ⟨n, rfl⟩ := Nat.exists_eq_succ_of_ne_zero (Nat.ne_zero_of_lt hn)
    have hload := loadWords_succ_ok (n := n) (hok 0 (Nat.succ_pos i))
    set u := setC k (be16 (bytes k).1 (bytes k).2.1) (afterCall (promCall k) s) with hu
    obtain ⟨t, ht, hcount, hwords⟩ := ih (n := n) (k := k + 1) (s := u) (by omega) rfl
      (fun j hj => by simpa [hu, Nat.add_right_comm, Nat.add_assoc, Nat.add_comm 1] using hok (j + 1) (by omega))
      (by simpa [hu, Nat.add_right_comm, Nat.add_assoc, Nat.add_comm 1] using herr)
    refine ⟨t, hload.trans ht, by omega, fun j hj hkj hji => ?_⟩
    obtain rfl | hlt := hkj.eq_or_lt
    · have hbelow := loadWords_c_below n hj u (Nat.lt_succ_self k)
      rw [ht] at hbelow
      simpa [hu] using hbelow
    · exact hwords j hj hlt (by omega)

theorem loadcalBody_of_loadWords_err {s t : State} {e : TErr} (h : loadWords 8 0 (invalidateCal s) = (t, some e)) :
    loadcalBody s = (t, .transportError e) := by
  simp only [loadcalBody, h]

/-- LOADCAL whose read `i` is the first to fail: the words before it have arrived (40_calibration_crc.md R83). -/
theorem exec_loadcal_aborted {s : State} {i : Nat} {bytes : Nat → Byte × Byte × Byte} {e : TErr} (hi : i < 8)
    (hok : PromAnswered s 0 i bytes) (herr : s.answerAt i (promCall i) = .err e) :
    ∃ t, exec .loadcal s = .next t ∧ t.wordsRead = i ∧
      ∀ (j : Nat) (hj : j < 8), j < i → t.c[j] = (bytes j).1 ++ (bytes j).2.1 := by
  obtain ⟨t, ht, hcount, hwords⟩ := loadWords_aborted bytes e i (n := 8) (k := 0) (s := invalidateCal s) hi rfl
    (fun j hj => by simpa using hok j hj) (by simpa using herr)
  have hbody := loadcalBody_of_loadWords_err ht
  refine ⟨complete (.transportError e) t, ?_, by simpa using hcount, fun j hj hji => ?_⟩
  · exact (runCommand_eq loadcalBody s).trans (by rw [hbody])
  · rw [complete_c, hwords j hj (Nat.zero_le j) (by omega), be16_eq_append]

/-! ### The settled statements -/

/-- Settles O52: every single update keeps R39 (1) to (7) and every valid flag, so a step does. -/
theorem stepKeepsBoundaryInv : Obligations.StepKeepsBoundaryInv := fun s _ hs h =>
  step_preserves (P := fun v => BoundaryInv v ∧ KeepsValidFlags s v)
    (fun _ _ _ huv ⟨hu, hP, hT, hO⟩ =>
      have ⟨hP', hT', hO'⟩ := huv.keepsValidFlags
      ⟨huv.keeps_boundaryInv hu, hP' ∘ hP, hT' ∘ hT, hO' ∘ hO⟩)
    (fun _ _ hu => hu) (fun _ _ _ hu => hu) h ⟨hs, id, id, id⟩

/-- Settles O53: the words in `C` change only while CAL_LOADED is 0, and `recordCrc` sets up their verdict. -/
theorem stepKeepsVerdictInv : Obligations.StepKeepsVerdictInv :=
  fun _ _ hs h => step_preserves (fun _ _ _ => Update.keeps_verdictInv) (fun _ _ hu => hu) (fun _ _ _ hu => hu) h hs

/-- Settles O33: each output of `compute` is smaller than half the range of its register. -/
theorem outputRegistersAreExact : Obligations.OutputRegistersAreExact := fun s hcal h1 h2 => by
  have hx := computeInput_inRange s
  exact ⟨_, exec_getreading_of_permitted (readingPermitted_iff.mpr ⟨hcal, h1, h2⟩),
    toInt_ofInt_of_abs_lt (by norm_num) (abs_temp2Of_le hx) (by norm_num),
    toInt_ofInt_of_abs_lt (by norm_num) (abs_pOf_le hx) (by norm_num),
    toInt_ofInt_of_abs_lt (by norm_num) (abs_depthOf_le hx s.water) (by norm_num)⟩

/-- Settles O45: no update writes TERR or RESULT, and a completion writes TERR with a TransportError only. -/
theorem errorDetailIsKept : Obligations.ErrorDetailIsKept := by
  refine ⟨fun i s t h hres => ?_, fun i s t hdev h => ?_⟩
  · obtain ⟨u, hu, ⟨_, k, rfl⟩ | ⟨_, rfl⟩⟩ := executed_of_exec h
    · exact (Completion.errorOr_of_resultCode_ne hres _).trans hu.keeps_terr_result.1
    · exact hu.keeps_terr_result.1
  · obtain ⟨u, hu, ⟨hcmd, _⟩ | ⟨_, rfl⟩⟩ := executed_of_exec h
    · exact absurd (hcmd.symm.trans hdev) nofun
    · exact hu.keeps_terr_result

/-- Settles O47, by the updates that write the Calibration Store. -/
theorem calibrationWriters : Obligations.CalibrationWriters := fun i s t hload hinit h => by
  have hkeep := exec_keeps State.calibration (fun _ _ => Update.keeps_calibration (not_or.mpr ⟨hload, hinit⟩))
    (fun _ _ => rfl) h
  simpa only [State.calibration, Prod.mk.injEq] using hkeep

/-- Settles O48: a sample by the updates that write it, the other channel's fresh flag by READ's three ends. -/
theorem sampleWriters : Obligations.SampleWriters :=
  ⟨fun _ _ _ hread hconv h => Prod.mk.inj (exec_keeps_sample (ch := .pressure) hread hconv h),
    fun _ _ _ hread hconv h => Prod.mk.inj (exec_keeps_sample (ch := .temperature) hread hconv h),
    fun s _ => ⟨fun h => runCommand_next h ▸ readBody_fresh_of_ne (ch := .pressure) (ch' := .temperature) nofun s,
      fun h => runCommand_next h ▸ readBody_fresh_of_ne (ch := .temperature) (ch' := .pressure) nofun s⟩⟩

/-- Settles O49, by the updates that write the outputs and the one that writes WATER. -/
theorem outputAndWaterWriters : Obligations.OutputAndWaterWriters := by
  refine ⟨fun i s t hi h => ?_, fun i s t hfresh hsalt h => ?_⟩
  · have hkeep := exec_keeps State.outputs (fun _ _ => Update.keeps_outputs hi) (fun _ _ => rfl) h
    simpa only [State.outputs, Prod.mk.injEq] using hkeep
  · have hi : ∀ m : WaterMode, i ≠ m.setwaterInstr
      | .fresh => hfresh
      | .salt => hsalt
    exact exec_keeps State.water (fun _ _ => Update.keeps_water hi) (fun _ _ => rfl) h

/-- Settles O50, by the updates that write the sequencer, and GETREADING by its two ends. -/
theorem sequencerWriters : Obligations.SequencerWriters := by
  refine ⟨fun i s t hi h => ?_, fun i s t hsp hst hcp hct h => ?_, fun s t h => ?_⟩
  · have hwrites : writesSequencer i = false := by
      obtain rfl | rfl | rfl | hdev := hi
      · rfl
      · rfl
      · rfl
      · exact writesSequencer_eq_false_of_device hdev
    have hkeep := exec_keeps State.sequencer (fun _ _ => Update.keeps_sequencer hwrites) (fun _ _ => rfl) h
    simpa only [State.sequencer, Prod.mk.injEq] using hkeep
  · have hi : ∀ ch : Channel, ¬(i = ch.startInstr ∨ i = ch.convertInstr)
      | .pressure => not_or.mpr ⟨hsp, hcp⟩
      | .temperature => not_or.mpr ⟨hst, hct⟩
    exact exec_keeps State.ch (fun _ _ => Update.keeps_ch hi) (fun _ _ => rfl) h
  · rw [runCommand_next h]
    exact getreadingBody_sequencer s

/-- Settles O51: no flag of the reset state is set and its trace is empty. -/
theorem invariantsAtReset : Obligations.InvariantsAtReset := ⟨by decide, nofun, rfl⟩

/-- Settles O55. -/
theorem resetValues : Obligations.ResetValues :=
  ⟨rfl, rfl, rfl, rfl, rfl, rfl, rfl, rfl, rfl, rfl, rfl⟩

/-- Settles O56: STATUS and the invariants do not see the environment's fields, which alone stay. -/
theorem powerOnResetEffect : Obligations.PowerOnResetEffect := fun _ =>
  ⟨statusWord_reset, rfl, invariantsAtReset.1⟩

/-- Settles O57, from the bits and fields of `statusWord` one by one. -/
theorem statusLayout : Obligations.StatusLayout := fun s => by
  obtain ⟨hcal, hcrc⟩ := statusWord_calibrationBits s
  obtain ⟨hd1, hd2, hp, ht⟩ := statusWord_sampleBits s
  refine ⟨hcal, hcrc, ?_, hd1, hd2, hp, ht, ?_, ?_, statusWord_outValidBit s, ?_, statusWord_reservedBit s,
    statusWord_reset⟩
  · rw [statusWord_waterBit]
    exact waterBit_getLsbD_zero s.water
  · rw [statusWord_channelBit]
    exact channelBit_getLsbD_zero s.ch
  · rw [statusWord_phaseField]
    cases s.phase <;> rfl
  · rw [statusWord_resultField]
    cases s.result <;> rfl

/-- Settles O58: `portWord` returns a valid register, and an aborted LOADCAL leaves its words readable. -/
theorem hostReadMap : Obligations.HostReadMap := fun k s => by
  refine ⟨rfl, ⟨_, rfl, extractLsb'_and_lowByte _⟩, fun hrun => ?_, fun hterr => ?_, fun hd1 => ?_, fun hd2 => ?_,
    fun hout => ?_, fun j hread => ?_, fun i bytes e hi hok herr => ?_, fun n hlow hsample hcal => ?_⟩
  · refine ⟨congrArg ReadOut.w16 ?_, congrArg ReadOut.w16 (portWord_of_valid hrun _ _ _)⟩
    rw [portWord_of_valid hrun]
    exact crcStatWord_and_lowByte s
  · exact congrArg ReadOut.error (if_pos hterr)
  · exact congrArg ReadOut.w24 (portWord_of_valid hd1 _ _ _)
  · exact congrArg ReadOut.w24 (portWord_of_valid hd2 _ _ _)
  · exact ⟨congrArg ReadOut.w32 (portWord_of_valid hout _ _ _), congrArg ReadOut.w32 (portWord_of_valid hout _ _ _),
      congrArg ReadOut.w64 (portWord_of_valid hout _ _ _)⟩
  · exact hostRead_word_of_readable k j s (by simpa [wordReadable] using hread)
  · obtain ⟨t, hexec, hcount, hwords⟩ := exec_loadcal_aborted hi hok herr
    refine ⟨t, hexec, fun j hji => ?_⟩
    rw [hostRead_word_of_readable k j t (by simp [wordReadable, hcount, hji])]
    exact congrArg ReadOut.w16 (hwords j j.isLt hji)
  · rw [hostRead_unmapped k s hlow hsample hcal]
    rfl

end Sys2Proof.Machine
end

