-- ==== Sys2Proof/Proofs/Memory.lean ====
section
/-! PROOFS. The rules of 20_memory.md: the joining of received bytes (R48, R49), the device-side words that mean
nothing (R47, R50), the step that no answer of the bus stops (R57), and the events of each command (R51, R53). What the
decoder can answer comes before the step, and the events of the bodies before those of the commands. -/

namespace Sys2Proof.Machine

/-! ### Joined bytes (R48, R49) -/

/-- Joining puts the first word above the second. -/
theorem toNat_append_eq_mul_add {m n : Nat} (x : BitVec m) (y : BitVec n) :
    (x ++ y).toNat = 2 ^ n * x.toNat + y.toNat := by
  rw [BitVec.toNat_append, ← Nat.shiftLeft_add_eq_or_of_lt y.isLt, Nat.shiftLeft_eq, Nat.mul_comm]

theorem toNat_be16 (hi lo : Byte) : (be16 hi lo).toNat = 256 * hi.toNat + lo.toNat := by
  rw [be16_eq_append, toNat_append_eq_mul_add]
  norm_num

/-- Bit by bit: each position lies in exactly one of the three bytes. -/
theorem be24_eq_append (b0 b1 b2 : Byte) : be24 b0 b1 b2 = b0 ++ b1 ++ b2 := by
  refine BitVec.eq_of_getLsbD_eq fun j hj => ?_
  rw [BitVec.getLsbD_append, BitVec.getLsbD_append]
  simp only [be24, BitVec.getLsbD_or, BitVec.getLsbD_shiftLeft, BitVec.getLsbD_setWidth]
  by_cases h8 : j < 8
  · have h16 : j < 16 := by omega
    simp [hj, h8, h16]
  · have hb2 : b2.getLsbD j = false := BitVec.getLsbD_of_ge b2 j (by omega)
    by_cases h16 : j < 16
    · have h : j - 8 < 8 ∧ j - 8 < 24 := by omega
      simp [hj, h8, h16, h, hb2]
    · have hb1 : b1.getLsbD (j - 8) = false := BitVec.getLsbD_of_ge b1 (j - 8) (by omega)
      have h : ¬j - 8 < 8 ∧ j - 16 < 24 := by omega
      simp [hj, h8, h16, h, hb2, hb1, Nat.sub_sub]

theorem toNat_be24 (b0 b1 b2 : Byte) :
    (be24 b0 b1 b2).toNat = 65536 * b0.toNat + 256 * b1.toNat + b2.toNat := by
  rw [be24_eq_append, toNat_append_eq_mul_add, toNat_append_eq_mul_add]
  omega

/-! ### What the decoder can answer -/

theorem noOperand_eq_instr {i j : Instr} {arg : Nat} (h : noOperand i arg = .instr j) : j = i := by
  cases arg with
  | zero => exact (Decoded.instr.inj h).symm
  | succ => cases h

theorem taggedOperand_eq_instr {one two j : Instr} {arg : Nat} (h : taggedOperand one two arg = .instr j) :
    j = one ∨ j = two := by
  unfold taggedOperand at h
  split_ifs at h
  · exact .inl (Decoded.instr.inj h).symm
  · exact .inr (Decoded.instr.inj h).symm

/-- A host command word decodes to a host command (30_encoding.md R61). -/
theorem isCommand_of_decodeCmd {w : Byte} {i : Instr} (h : decodeCmd w = .instr i) : i.isCommand = true := by
  unfold decodeCmd at h
  split at h
  case h_1 | h_2 | h_3 | h_8 => rw [noOperand_eq_instr h]; rfl
  case h_4 | h_5 | h_6 | h_7 => obtain rfl | rfl := taggedOperand_eq_instr h <;> rfl
  case h_9 => cases h

/-- The host commands have no field. -/
theorem wellFormed_of_isCommand {i : Instr} (h : i.isCommand = true) : i.WellFormed := by
  cases i with
  | devReset | devConvD1 | devConvD2 | devPromRead | devAdcRead => cases h
  | _ => rfl

theorem argField_le (b : Byte) : ResolutionInDomain (argField b) := Nat.le_of_lt_succ (b.extractLsb' 0 4).isLt

theorem wellFormed_of_decodeCtrl {b : Byte} {i : Instr} (h : decodeCtrl b = .instr i) : i.WellFormed := by
  unfold decodeCtrl at h
  split at h
  · cases h; rfl
  · split at h
    · cases h; exact decide_eq_true (argField_le b)
    · cases h; exact decide_eq_true (argField_le b)
    · cases h

theorem wellFormed_of_decodeReg {a : Byte} {i : Instr} (h : decodeReg a = .instr i) : i.WellFormed := by
  unfold decodeReg at h
  split_ifs at h
  · cases h; rfl
  · cases h; exact decide_eq_true (Nat.le_of_lt_succ (a.extractLsb' 1 3).isLt)

/-- Every field the decoder gives lies in its domain. -/
theorem wellFormed_of_decode {e : Encoded} {i : Instr} (h : decode e = .instr i) : i.WellFormed := by
  cases e with
  | cmd w => exact wellFormed_of_isCommand (isCommand_of_decodeCmd h)
  | ctrl b => exact wellFormed_of_decodeCtrl h
  | reg a => exact wellFormed_of_decodeReg h

/-! ### Device-side words outside their domains -/

theorem conversionWord_of_not_inDomain {r : Nat} (hr : ¬ResolutionInDomain r) (ch : Channel) (s : State) :
    conversionWord r ch s = .refused .parameterOutOfDomain := if_neg hr

theorem execDevPromRead_of_not_inDomain {k : Nat} (hk : ¬PromIndexInDomain k) (s : State) :
    execDevPromRead k s = .fault .undefinedBusAccess := if_neg hk

/-- A device-side word that its decoder rejects stops the step (20_memory.md R47, R50). -/
theorem step_of_busWord_rejected {s : State} {b : BusWord} {why : DecodeReject} (hb : s.busWord = some b)
    (hd : decode b.encoded = .reject why) : step s = .fault .undefinedBusAccess := by
  simp only [step, fetch_of_busWord hb, hd]
  cases b <;> rfl

/-! ### Steps without a device-side word (R57) -/

/-- Every command completes (00_scope.md R14). -/
theorem exec_next_of_isCommand {i : Instr} (hi : i.isCommand = true) (s : State) : ∃ t, exec i s = .next t := by
  cases i with
  | devReset | devConvD1 | devConvD2 | devPromRead | devAdcRead => cases hi
  | _ => exact ⟨_, runCommand_eq _ s⟩

/-- The device-side word is the environment's: no update writes it (log 6). -/
theorem Update.keeps_busWord {i : Instr} {u v : State} (h : Update i u v) : v.busWord = u.busWord := by
  cases h <;> rfl

theorem exec_keeps_busWord {i : Instr} {s t : State} (h : exec i s = .next t) : t.busWord = s.busWord :=
  exec_keeps State.busWord (fun _ _ => Update.keeps_busWord) (fun _ _ => rfl) h

theorem step_of_fetch_cmd_reject {s u : State} {w : Byte} {why : DecodeReject} (hf : fetch s = some (.cmd w, u))
    (hd : decodeCmd w = .reject why) : step s = .next (complete .illegalCommand u) := by
  have hd' : decode (.cmd w) = .reject why := hd
  simp only [step, hf, hd']
  rfl

/-- A command word, legal or not, is stepped to a next state. -/
theorem step_next_of_fetch_cmd {s u : State} {w : Byte} (hf : fetch s = some (.cmd w, u)) :
    ∃ t, step s = .next t ∧ t.busWord = u.busWord := by
  cases hd : decodeCmd w with
  | instr i =>
    obtain ⟨t, ht⟩ := exec_next_of_isCommand (isCommand_of_decodeCmd hd) u
    exact ⟨t, (step_of_fetch_instr hf hd).trans ht, exec_keeps_busWord ht⟩
  | reject why => exact ⟨_, step_of_fetch_cmd_reject hf hd, rfl⟩

/-! ### Allowed events (R51) -/

/-- From `s` to `t` the trace grew at its end, by events that `i` may perform. -/
def Performs (i : Instr) (s t : State) : Prop :=
  ∃ evs, t.trace = s.trace ++ evs ∧ ∀ e ∈ evs, eventAllowed i e = true

section Performs
variable {i : Instr} {s t u : State}

theorem Performs.of_trace_eq (h : t.trace = s.trace) : Performs i s t :=
  ⟨[], by rw [h, List.append_nil], nofun⟩

theorem Performs.of_event {e : Event} (he : eventAllowed i e = true) (h : t.trace = s.trace ++ [e]) :
    Performs i s t :=
  ⟨[e], h, fun _ he' => List.mem_singleton.mp he' ▸ he⟩

theorem Performs.trans (hst : Performs i s t) (htu : Performs i t u) : Performs i s u := by
  obtain ⟨evs, ht, hevs⟩ := hst
  obtain ⟨evs', hu, hevs'⟩ := htu
  refine ⟨evs ++ evs', by rw [hu, ht, List.append_assoc], fun e he => ?_⟩
  obtain he | he := List.mem_append.mp he
  · exact hevs e he
  · exact hevs' e he

end Performs

/-- The high nibble of a conversion byte is its channel's, for every resolution (30_encoding.md R66). -/
theorem convByte_and_highNibble (r : Fin 16) :
    convByte r .pressure &&& 0xF0#8 = 0x40#8 ∧ convByte r .temperature &&& 0xF0#8 = 0x50#8 := by
  revert r
  decide

/-- The eight PROM addresses (30_encoding.md R67). -/
theorem promAddr_and_mask {k : Nat} (hk : k < 8) : promAddr k &&& 0xF1#8 = 0xA0#8 := by
  have hall : ∀ j : Fin 8, promAddr j &&& 0xF1#8 = 0xA0#8 := by decide
  exact hall ⟨k, hk⟩

theorem eventAllowed_resetCall {i : Instr} (hi : i = .reset ∨ i = .init) (a : BusAnswer) :
    eventAllowed i (busEvent resetCall a) = true := by
  obtain rfl | rfl := hi <;> simp [eventAllowed, busEvent, resetCall, resetByte]

theorem eventAllowed_resetDelay {i : Instr} (hi : i = .reset ∨ i = .init) :
    eventAllowed i (.delay Config.tReset) = true := by
  obtain rfl | rfl := hi <;> rfl

theorem eventAllowed_promCall {i : Instr} (hi : i = .loadcal ∨ i = .init) {k : Nat} (hk : k < 8) (a : BusAnswer) :
    eventAllowed i (busEvent (promCall k) a) = true := by
  obtain rfl | rfl := hi <;> simp [eventAllowed, busEvent, promCall, promAddr_and_mask hk]

theorem eventAllowed_startCall {i : Instr} {ch : Channel} (hi : i = ch.startInstr ∨ i = ch.convertInstr)
    (a : BusAnswer) : eventAllowed i (busEvent (startCall ch) a) = true := by
  have ⟨hp, ht⟩ := convByte_and_highNibble Config.res
  cases ch <;> obtain rfl | rfl := hi <;>
    simp [eventAllowed, busEvent, startCall, Channel.startInstr, Channel.convertInstr, hp, ht]

theorem eventAllowed_conversionDelay {i : Instr} {ch : Channel} (hi : i = ch.startInstr ∨ i = ch.convertInstr) :
    eventAllowed i (.delay Config.tConv) = true := by
  cases ch <;> obtain rfl | rfl := hi <;> simp [eventAllowed, Channel.startInstr, Channel.convertInstr]

theorem eventAllowed_adcCall {i : Instr} {ch : Channel} (hi : i = ch.readInstr ∨ i = ch.convertInstr)
    (a : BusAnswer) : eventAllowed i (busEvent adcCall a) = true := by
  cases ch <;> obtain rfl | rfl := hi <;>
    simp [eventAllowed, busEvent, adcCall, adcReg, Channel.readInstr, Channel.convertInstr]

/-! ### The events of each body -/

theorem thenIfOk_performs {i : Instr} {a b : Body} (ha : ∀ s, Performs i s (a s).1)
    (hb : ∀ s, Performs i s (b s).1) (s : State) : Performs i s (a.thenIfOk b s).1 := by
  by_cases hk : (a s).2 = .ok
  · rw [thenIfOk_of_ok (Prod.ext rfl hk)]
    exact (ha s).trans (hb _)
  · rw [thenIfOk_of_not_ok b rfl hk]
    exact ha s

theorem resetBody_performs {i : Instr} (hi : i = .reset ∨ i = .init) (s : State) :
    Performs i s (resetBody s).1 := by
  have hcall : Performs i s (afterCall resetCall s) := .of_event (eventAllowed_resetCall hi _) rfl
  obtain ⟨_, _, h⟩ | ⟨_, _, _, _, h⟩ := resetBody_cases s
  · rw [h]
    exact hcall
  · rw [h]
    exact hcall.trans (.of_event (eventAllowed_resetDelay hi) rfl)

theorem startBody_performs {i : Instr} {ch : Channel} (hi : i = ch.startInstr ∨ i = ch.convertInstr) (s : State) :
    Performs i s (startBody ch s).1 := by
  have hcall : Performs i s (afterCall (startCall ch) s) := .of_event (eventAllowed_startCall hi _) rfl
  obtain ⟨_, _, h⟩ | ⟨_, _, _, _, h⟩ := startBody_cases ch s
  · rw [h]
    exact hcall
  · rw [h]
    exact hcall.trans (.of_event (eventAllowed_conversionDelay hi) rfl)

theorem readBody_performs {i : Instr} {ch : Channel} (hi : i = ch.readInstr ∨ i = ch.convertInstr) (s : State) :
    Performs i s (readBody ch s).1 := by
  have hcall : Performs i s (afterCall adcCall s) := .of_event (eventAllowed_adcCall hi _) rfl
  obtain ⟨_, h⟩ | ⟨_, _, _, h⟩ | ⟨_, _, _, _, _, h⟩ := readBody_cases ch s
  · rw [h]
    exact .of_trace_eq rfl
  · rw [h]
    exact hcall
  · rw [h]
    exact hcall.trans (.of_trace_eq rfl)

theorem convertBody_performs (ch : Channel) : ∀ s, Performs ch.convertInstr s (convertBody ch s).1 :=
  thenIfOk_performs (startBody_performs (.inr rfl)) (readBody_performs (.inr rfl))

/-- Only PROM words 0 to 7 are read (40_calibration_crc.md R82). -/
theorem loadWords_performs {i : Instr} (hi : i = .loadcal ∨ i = .init) (n : Nat) :
    ∀ {k : Nat} (s : State), k + n ≤ 8 → Performs i s (loadWords n k s).1 := by
  induction n with
  | zero => exact fun _ _ => .of_trace_eq rfl
  | succ n ih =>
    intro k s hk
    have hcall : Performs i s (afterCall (promCall k) s) :=
      .of_event (eventAllowed_promCall hi (by omega) _) rfl
    cases ha : s.answerAt 0 (promCall k) with
    | err e =>
      rw [loadWords_succ_err ha]
      exact hcall
    | ok b0 b1 b2 =>
      rw [loadWords_succ_ok ha]
      exact (hcall.trans (.of_trace_eq rfl)).trans (ih _ (by omega))

theorem loadcalBody_performs {i : Instr} (hi : i = .loadcal ∨ i = .init) (s : State) :
    Performs i s (loadcalBody s).1 := by
  have hload : Performs i s (loadWords 8 0 (invalidateCal s)).1 := loadWords_performs hi 8 (invalidateCal s) le_rfl
  obtain ⟨_, _, hw, h⟩ | ⟨_, hw, h⟩ := loadcalBody_cases s
  · rw [hw] at hload
    rw [h]
    exact hload
  · rw [hw] at hload
    rw [h]
    exact hload.trans (.of_trace_eq rfl)

theorem initBody_performs : ∀ s, Performs .init s (initBody s).1 :=
  thenIfOk_performs (resetBody_performs (.inr rfl)) (loadcalBody_performs (.inr rfl))

theorem getreadingBody_performs (s : State) : Performs .getreading s (getreadingBody s).1 := by
  obtain ⟨_, h⟩ | ⟨_, h⟩ := getreadingBody_cases s
  · rw [h]
    exact .of_trace_eq rfl
  · rw [h]
    exact .of_trace_eq rfl

/-! ### The events of each command -/

/-- A completion performs no event. -/
theorem runCommand_performs {i : Instr} {b : Body} {s t : State} (hb : ∀ s, Performs i s (b s).1)
    (h : runCommand b s = .next t) : Performs i s t := by
  rw [runCommand_next h]
  exact (hb s).trans (.of_trace_eq rfl)

theorem exec_performs {i : Instr} (hi : i.isCommand = true) {s t : State} (h : exec i s = .next t) :
    Performs i s t := by
  cases i with
  | init => exact runCommand_performs initBody_performs h
  | reset => exact runCommand_performs (resetBody_performs (.inl rfl)) h
  | loadcal => exact runCommand_performs (loadcalBody_performs (.inl rfl)) h
  | startP => exact runCommand_performs (startBody_performs (ch := .pressure) (.inl rfl)) h
  | startT => exact runCommand_performs (startBody_performs (ch := .temperature) (.inl rfl)) h
  | readP => exact runCommand_performs (readBody_performs (ch := .pressure) (.inl rfl)) h
  | readT => exact runCommand_performs (readBody_performs (ch := .temperature) (.inl rfl)) h
  | convertP => exact runCommand_performs (convertBody_performs .pressure) h
  | convertT => exact runCommand_performs (convertBody_performs .temperature) h
  | setwaterFresh => exact runCommand_performs (b := setwaterBody .fresh) (fun _ => .of_trace_eq rfl) h
  | setwaterSalt => exact runCommand_performs (b := setwaterBody .salt) (fun _ => .of_trace_eq rfl) h
  | getreading => exact runCommand_performs getreadingBody_performs h
  | devReset | devConvD1 | devConvD2 | devPromRead | devAdcRead => cases hi

/-! ### The settled statements -/

/-- Settles O12: joined bytes are appended words. -/
theorem bigEndianAssembly : Obligations.BigEndianAssembly := ⟨toNat_be16, toNat_be24⟩

/-- Settles O42: the domain checks of the device-side words, the fields of decoded words, and the rejecting step. -/
theorem deviceWordsOutOfDomainStop : Obligations.DeviceWordsOutOfDomainStop := by
  refine ⟨fun s n => ⟨fun hn => ?_, fun hn => ?_⟩, fun e n => ⟨fun hn => ?_, fun hn => ?_⟩,
    fun s b why hb hd => step_of_busWord_rejected hb hd⟩
  · exact ⟨conversionWord_of_not_inDomain hn.not_ge .pressure s,
      conversionWord_of_not_inDomain hn.not_ge .temperature s⟩
  · exact execDevPromRead_of_not_inDomain hn.not_ge s
  · exact ⟨fun hd => hn.not_ge (of_decide_eq_true (wellFormed_of_decode hd)),
      fun hd => hn.not_ge (of_decide_eq_true (wellFormed_of_decode hd))⟩
  · exact fun hd => hn.not_ge (of_decide_eq_true (wellFormed_of_decode hd))

/-- Settles O9: what a step takes without a device-side word is a command word, and every command completes. -/
theorem stepNeverStops : Obligations.StepNeverStops := fun s hb => by
  cases hw : s.script with
  | nil => exact ⟨s, step_of_fetch_none (fetch_of_nil hb hw), hb⟩
  | cons w ws =>
    obtain ⟨t, ht, hbt⟩ := step_next_of_fetch_cmd (fetch_of_script hb hw)
    exact ⟨t, ht, hbt.trans hb⟩

/-- Settles O46: each body performs its command's events, and a completion none. -/
theorem eventsOfEachCommand : Obligations.EventsOfEachCommand := fun _ s hi => by
  obtain ⟨t, ht⟩ := exec_next_of_isCommand hi s
  obtain ⟨evs, htrace, hallowed⟩ := exec_performs hi ht
  exact ⟨t, evs, ht, htrace, hallowed⟩

end Sys2Proof.Machine
end

/-! PROOFS. The rules of 30_encoding.md: the fields of a word (R60), decoder and encoder as each other's inverses (R61,
R63 to R68), the word put where the step fetches, the device-side words as bus primitives, scripts (R70 to R72) and the
composed commands (R71). The arithmetic of the two nibbles comes first; every fact about a word goes through it. -/

namespace Sys2Proof.Machine

/-! ### The fields of a word (R60) -/

theorem opField_eq (w : Byte) : opField w = w.toNat / 16 := by
  have hw := w.isLt
  simp only [opField, BitVec.extractLsb'_toNat, Nat.shiftRight_eq_div_pow]
  omega

theorem argField_eq (w : Byte) : argField w = w.toNat % 16 := by
  simp only [argField, BitVec.extractLsb'_toNat, Nat.shiftRight_zero]

/-- The two fields are the whole word. -/
theorem eq_ofNat_of_fields {w : Byte} {o a : Nat} (ho : opField w = o) (ha : argField w = a) :
    w = BitVec.ofNat 8 (16 * o + a) := by
  rw [opField_eq] at ho
  rw [argField_eq] at ha
  have hsum : 16 * o + a = w.toNat := by omega
  rw [hsum, BitVec.ofNat_toNat, BitVec.setWidth_eq]

/-! ### The bytes the core puts on the bus (R66, R67) -/

theorem toNat_convByte {r : Nat} (hr : r ≤ 15) (ch : Channel) :
    (convByte r ch).toNat = 0x40 + r + channelOffset ch := by
  have hoff : channelOffset ch ≤ 0x10 := by cases ch <;> decide
  rw [convByte, BitVec.toNat_ofNat, Nat.mod_eq_of_lt (by omega)]

theorem toNat_promAddr {k : Nat} (hk : k ≤ 7) : (promAddr k).toNat = 0xA0 + 2 * k := by
  rw [promAddr, BitVec.toNat_ofNat, Nat.mod_eq_of_lt (by omega)]

theorem convByte_pressure (r : Nat) : convByte r .pressure = BitVec.ofNat 8 (0x40 + r) := rfl

theorem convByte_temperature (r : Nat) : convByte r .temperature = BitVec.ofNat 8 (0x50 + r) :=
  congrArg (BitVec.ofNat 8) (Nat.add_right_comm 0x40 r 0x10)

theorem encode_devConvD1 (r : Nat) : encode (.devConvD1 r) = .ctrl (convByte r .pressure) := rfl

theorem encode_devConvD2 (r : Nat) : encode (.devConvD2 r) = .ctrl (convByte r .temperature) :=
  congrArg Encoded.ctrl (convByte_temperature r).symm

theorem encode_devPromRead (k : Nat) : encode (.devPromRead k) = .reg (promAddr k) := rfl

/-- The high nibble of a conversion byte is its channel's, the low nibble the resolution. -/
theorem fields_convByte {r : Nat} (hr : r ≤ 15) (ch : Channel) :
    opField (convByte r ch) = (match ch with | .pressure => 4 | .temperature => 5) ∧ argField (convByte r ch) = r := by
  rw [opField_eq, argField_eq, toNat_convByte hr]
  cases ch <;> simp only [channelOffset] <;> omega

/-- Bits 7 to 5 of a conversion byte are 010, and bit 4 is the channel. -/
theorem extractLsb'_convByte {r : Nat} (hr : r ≤ 15) (ch : Channel) :
    (convByte r ch).extractLsb' 5 3 = 0b010#3 ∧
    (convByte r ch).extractLsb' 4 1 = (match ch with | .pressure => 0#1 | .temperature => 1#1) := by
  constructor <;> apply BitVec.eq_of_toNat_eq <;>
    rw [BitVec.extractLsb'_toNat, toNat_convByte hr, Nat.shiftRight_eq_div_pow]
  all_goals cases ch <;> simp only [channelOffset, BitVec.toNat_ofNat] <;> omega

/-- The index field of a register address is bits 3 to 1. -/
theorem toNat_indexField (a : Byte) : (a.extractLsb' 1 3).toNat = a.toNat / 2 % 8 := by
  rw [BitVec.extractLsb'_toNat, Nat.shiftRight_eq_div_pow]

theorem getLsbD_zero_eq_false_iff (a : Byte) : a.getLsbD 0 = false ↔ a.toNat % 2 = 0 := by
  rw [← BitVec.testBit_toNat, Nat.testBit_zero, decide_eq_false_iff_not, Nat.mod_two_not_eq_one]

/-- A PROM address is `1010iii0`: the operation 0xA, the index, and an even number. -/
theorem fields_promAddr {k : Nat} (hk : k ≤ 7) :
    opField (promAddr k) = 0xA ∧ (promAddr k).getLsbD 0 = false ∧ ((promAddr k).extractLsb' 1 3).toNat = k := by
  rw [opField_eq, getLsbD_zero_eq_false_iff, toNat_indexField, toNat_promAddr hk]
  omega

/-- An address with the fields of a PROM read is the address of its index. -/
theorem promAddr_of_fields {a : Byte} (hop : opField a = 0xA) (heven : a.getLsbD 0 = false) :
    promAddr (a.extractLsb' 1 3).toNat = a := by
  rw [opField_eq] at hop
  rw [getLsbD_zero_eq_false_iff] at heven
  have hsum : 0xA0 + 2 * (a.toNat / 2 % 8) = a.toNat := by omega
  rw [toNat_indexField, promAddr, hsum, BitVec.ofNat_toNat, BitVec.setWidth_eq]

/-! ### The command decoder (R61, R63) -/

theorem noOperand_eq_instr_iff {i j : Instr} {arg : Nat} : noOperand i arg = .instr j ↔ arg = 0 ∧ j = i := by
  cases arg <;> simp [noOperand, eq_comm]

theorem taggedOperand_eq_instr_iff {one two j : Instr} {arg : Nat} :
    taggedOperand one two arg = .instr j ↔ (arg = 1 ∧ j = one) ∨ (arg = 2 ∧ j = two) := by
  unfold taggedOperand
  split_ifs with h1 h2 <;> simp_all [eq_comm]

theorem noOperand_rejects_iff {i : Instr} {arg : Nat} : (∃ why, noOperand i arg = .reject why) ↔ arg ≠ 0 := by
  cases arg <;> simp [noOperand]

theorem taggedOperand_rejects_iff {one two : Instr} {arg : Nat} :
    (∃ why, taggedOperand one two arg = .reject why) ↔ arg ≠ 1 ∧ arg ≠ 2 := by
  unfold taggedOperand
  split_ifs with h1 h2 <;> simp_all

/-- The clauses of R63, on the fields. -/
theorem decodeCmd_rejects_iff (w : Byte) : (∃ why, decodeCmd w = .reject why) ↔
    (opField w = 0 ∨ 9 ≤ opField w ∨
      ((opField w = 1 ∨ opField w = 2 ∨ opField w = 3 ∨ opField w = 8) ∧ argField w ≠ 0) ∨
      ((4 ≤ opField w ∧ opField w ≤ 7) ∧ argField w ≠ 1 ∧ argField w ≠ 2)) := by
  unfold decodeCmd
  split
  case h_1 | h_2 | h_3 | h_8 => rw [noOperand_rejects_iff]; omega
  case h_4 | h_5 | h_6 | h_7 => rw [taggedOperand_rejects_iff]; omega
  case h_9 => exact iff_of_true ⟨_, rfl⟩ (by simp only [imp_false] at *; omega)

/-- A command word that decodes has the fields of its command, which are the whole word. -/
theorem encode_of_decodeCmd {w : Byte} {i : Instr} (h : decodeCmd w = .instr i) : encode i = .cmd w := by
  unfold decodeCmd at h
  split at h
  case h_1 hop | h_2 hop | h_3 hop | h_8 hop =>
    obtain ⟨harg, rfl⟩ := noOperand_eq_instr_iff.mp h
    rw [eq_ofNat_of_fields hop harg]
    rfl
  case h_4 hop | h_5 hop | h_6 hop | h_7 hop =>
    obtain ⟨harg, rfl⟩ | ⟨harg, rfl⟩ := taggedOperand_eq_instr_iff.mp h <;>
      rw [eq_ofNat_of_fields hop harg] <;> rfl
  case h_9 => cases h

/-! ### The device-side decoders (R65 to R68) -/

/-- What the decoder of control bytes answers, and on which of them. -/
theorem decodeCtrl_eq_instr {b : Byte} {i : Instr} (h : decodeCtrl b = .instr i) :
    (b = 0x1E#8 ∧ i = .devReset) ∨ (opField b = 4 ∧ i = .devConvD1 (argField b)) ∨
      (opField b = 5 ∧ i = .devConvD2 (argField b)) := by
  unfold decodeCtrl at h
  split at h
  case isTrue hb => exact .inl ⟨hb, (Decoded.instr.inj h).symm⟩
  case isFalse =>
    split at h
    case h_1 hop => exact .inr (.inl ⟨hop, (Decoded.instr.inj h).symm⟩)
    case h_2 hop => exact .inr (.inr ⟨hop, (Decoded.instr.inj h).symm⟩)
    case h_3 => cases h

/-- What the decoder of register addresses answers, and on which of them. -/
theorem decodeReg_eq_instr {a : Byte} {i : Instr} (h : decodeReg a = .instr i) :
    (a = 0x00#8 ∧ i = .devAdcRead) ∨
      (opField a = 0xA ∧ a.getLsbD 0 = false ∧ i = .devPromRead (a.extractLsb' 1 3).toNat) := by
  unfold decodeReg at h
  split_ifs at h with hz hp
  · exact .inl ⟨hz, (Decoded.instr.inj h).symm⟩
  · exact .inr ⟨hp.1, hp.2, (Decoded.instr.inj h).symm⟩

theorem encode_of_decodeCtrl {b : Byte} {i : Instr} (h : decodeCtrl b = .instr i) : encode i = .ctrl b := by
  obtain ⟨rfl, rfl⟩ | ⟨hop, rfl⟩ | ⟨hop, rfl⟩ := decodeCtrl_eq_instr h
  · rfl
  · exact congrArg Encoded.ctrl (eq_ofNat_of_fields hop rfl).symm
  · exact congrArg Encoded.ctrl (eq_ofNat_of_fields hop rfl).symm

theorem encode_of_decodeReg {a : Byte} {i : Instr} (h : decodeReg a = .instr i) : encode i = .reg a := by
  obtain ⟨rfl, rfl⟩ | ⟨hop, heven, rfl⟩ := decodeReg_eq_instr h
  · rfl
  · exact congrArg Encoded.reg (promAddr_of_fields hop heven)

/-- A word that decodes, under any format, is the encoding of what it decodes to. -/
theorem encode_of_decode {e : Encoded} {i : Instr} (h : decode e = .instr i) : encode i = e := by
  cases e with
  | cmd w => exact encode_of_decodeCmd h
  | ctrl b => exact encode_of_decodeCtrl h
  | reg a => exact encode_of_decodeReg h

/-- The reset byte has the operation 1, so it is no conversion byte. -/
theorem ne_resetByte_of_opField {b : Byte} (hop : opField b ≠ 1) : b ≠ 0x1E#8 := by
  rintro rfl
  exact hop rfl

theorem decodeCtrl_convByte {r : Nat} (hr : r ≤ 15) (ch : Channel) : decodeCtrl (convByte r ch) =
    .instr (match ch with | .pressure => .devConvD1 r | .temperature => .devConvD2 r) := by
  obtain ⟨hop, harg⟩ := fields_convByte hr ch
  have hreset : convByte r ch ≠ 0x1E#8 := ne_resetByte_of_opField (by rw [hop]; cases ch <;> decide)
  rw [decodeCtrl, if_neg hreset, hop, harg]
  cases ch <;> rfl

theorem decodeReg_promAddr {k : Nat} (hk : k ≤ 7) : decodeReg (promAddr k) = .instr (.devPromRead k) := by
  obtain ⟨hop, heven, hindex⟩ := fields_promAddr hk
  have hadc : promAddr k ≠ 0x00#8 := fun h => by rw [h] at hop; exact absurd hop (by decide)
  rw [decodeReg, if_neg hadc, if_pos ⟨hop, heven⟩, hindex]

/-- Decoding gives back every well-formed instruction: one word for each command, the fields for the others. -/
theorem decode_encode {i : Instr} (h : i.WellFormed) : decode (encode i) = .instr i := by
  cases i with
  | devConvD1 r => exact decodeCtrl_convByte (of_decide_eq_true h) .pressure
  | devConvD2 r =>
    rw [encode_devConvD2]
    exact decodeCtrl_convByte (of_decide_eq_true h) .temperature
  | devPromRead k => exact decodeReg_promAddr (of_decide_eq_true h)
  | _ => rfl

/-! ### The formats of words -/

theorem encode_of_isCommand {i : Instr} (h : i.isCommand = true) : encode i = .cmd (encode i).word := by
  cases i with
  | devReset | devConvD1 | devConvD2 | devPromRead | devAdcRead => cases h
  | _ => rfl

/-- A device-side instruction is a control byte or a register address. -/
theorem encode_of_not_isCommand {i : Instr} (h : i.isCommand = false) :
    encode i = .ctrl (encode i).word ∨ encode i = .reg (encode i).word := by
  cases i with
  | devReset | devConvD1 | devConvD2 => exact .inl rfl
  | devPromRead | devAdcRead => exact .inr rfl
  | _ => cases h

/-- The twelve legal command words (R61). -/
def legalWords : List Byte :=
  [0x10#8, 0x20#8, 0x30#8, 0x41#8, 0x42#8, 0x51#8, 0x52#8, 0x61#8, 0x62#8, 0x71#8, 0x72#8, 0x80#8]

theorem word_mem_legalWords {i : Instr} (h : i.isCommand = true) : (encode i).word ∈ legalWords := by
  cases i with
  | devReset | devConvD1 | devConvD2 | devPromRead | devAdcRead => cases h
  | _ => decide

theorem decodeCmd_rejects_of_notMem {w : Byte} (hw : w ∉ legalWords) : ∃ why, decodeCmd w = .reject why := by
  cases hd : decodeCmd w with
  | reject why => exact ⟨why, rfl⟩
  | instr i =>
    have hmem := word_mem_legalWords (isCommand_of_decodeCmd hd)
    rw [encode_of_decodeCmd hd] at hmem
    exact absurd hmem hw

/-- No register address the core reads is a control byte it writes. -/
theorem decodeCtrl_rejects_of_decodeReg {a : Byte} {i : Instr} (h : decodeReg a = .instr i) :
    ∃ why, decodeCtrl a = .reject why := by
  cases hc : decodeCtrl a with
  | reject why => exact ⟨why, rfl⟩
  | instr j =>
    have hreg : opField a = 0 ∨ opField a = 0xA := by
      obtain ⟨rfl, _⟩ | ⟨hop, _, _⟩ := decodeReg_eq_instr h
      · exact .inl rfl
      · exact .inr hop
    have hctrl : opField a = 1 ∨ opField a = 4 ∨ opField a = 5 := by
      obtain ⟨rfl, _⟩ | ⟨hop, _⟩ | ⟨hop, _⟩ := decodeCtrl_eq_instr hc
      · exact .inl rfl
      · exact .inr (.inl hop)
      · exact .inr (.inr hop)
    omega

/-! ### The format of a bare word (log 17) -/

theorem tableEncoded_of_decodeCmd {w : Byte} {i : Instr} (h : decodeCmd w = .instr i) : tableEncoded w = .cmd w := by
  simp only [tableEncoded, h]

theorem tableEncoded_of_decodeCtrl {w : Byte} {why : DecodeReject} {i : Instr} (hcmd : decodeCmd w = .reject why)
    (h : decodeCtrl w = .instr i) : tableEncoded w = .ctrl w := by
  simp only [tableEncoded, hcmd, h]

theorem tableEncoded_of_decodeReg {w : Byte} {why : DecodeReject} {i : Instr} (hcmd : decodeCmd w = .reject why)
    (h : decodeReg w = .instr i) : tableEncoded w = .reg w := by
  obtain ⟨why', hctrl⟩ := decodeCtrl_rejects_of_decodeReg h
  simp only [tableEncoded, hcmd, hctrl, h]

/-! ### The word put where the step fetches (logs 5, 6) -/

theorem withFetchWord_toNat (s : State) (w : Byte) : s.withFetchWord 8 w.toNat = present (tableEncoded w) s := by
  rw [State.withFetchWord, Nat.mod_eq_of_lt w.isLt, BitVec.ofNat_toNat, BitVec.setWidth_eq]

theorem step_present_cmd {w : Byte} {i : Instr} (h : decodeCmd w = .instr i) (s : State) :
    step (present (.cmd w) s) = exec i { s with busWord := none, script := s.script.tail } :=
  step_of_fetch_instr (fetch_of_script rfl rfl) h

theorem step_present_busWord {b : BusWord} {i : Instr} (h : decode b.encoded = .instr i) (s : State) :
    step (present b.encoded s) = exec i { s with busWord := none } := by
  cases b with
  | ctrl b => exact step_of_fetch_instr (fetch_of_busWord rfl) h
  | reg a => exact step_of_fetch_instr (fetch_of_busWord rfl) h

theorem step_withFetchWord_of_isCommand {i : Instr} (hi : i.isCommand = true) (s : State) :
    step (s.withFetchWord 8 (encode i).word.toNat) = exec i { s with busWord := none, script := s.script.tail } := by
  have hd := decode_encode (wellFormed_of_isCommand hi)
  rw [encode_of_isCommand hi] at hd
  rw [withFetchWord_toNat, tableEncoded_of_decodeCmd hd]
  exact step_present_cmd hd s

theorem step_withFetchWord_of_not_isCommand {i : Instr} {why : DecodeReject} (hwf : i.WellFormed)
    (hi : i.isCommand = false) (hcmd : decodeCmd (encode i).word = .reject why) (s : State) :
    step (s.withFetchWord 8 (encode i).word.toNat) = exec i { s with busWord := none } := by
  have hd := decode_encode hwf
  rw [withFetchWord_toNat]
  obtain he | he := encode_of_not_isCommand hi <;> rw [he] at hd
  · rw [tableEncoded_of_decodeCtrl hcmd hd]
    exact step_present_busWord (b := .ctrl _) hd s
  · rw [tableEncoded_of_decodeReg hcmd hd]
    exact step_present_busWord (b := .reg _) hd s

/-! ### Device-side words in their domains -/

theorem conversionWord_of_inDomain {r : Nat} (hr : ResolutionInDomain r) (ch : Channel) (s : State) :
    conversionWord r ch s = .next (afterCall (.write Config.devAddr (convByte r ch)) s) := if_pos hr

theorem execDevPromRead_of_inDomain {k : Nat} (hk : PromIndexInDomain k) (s : State) :
    execDevPromRead k s = .next (afterCall (promCall k) s) := if_pos hk

/-- START sends the conversion byte of the core's own resolution. -/
theorem startByte_eq_convByte (ch : Channel) : startByte ch = convByte Config.res ch := by
  cases ch with
  | pressure => rfl
  | temperature => exact (convByte_temperature _).symm

/-! ### Scripts (R70 to R72) -/

/-- A program assembles if its first line and the rest do, and its words are theirs in order. -/
theorem assemble_cons_eq_some_iff {l : String} {ls : List String} {w : List Byte} :
    assemble (l :: ls) = some w ↔ ∃ is bs, assembleLine l = some is ∧ assemble ls = some bs ∧
      w = is.map (fun i => (encode i).word) ++ bs := by
  cases hl : assembleLine l <;> cases hls : assemble ls <;> simp [assemble, hl, hls, eq_comm]

theorem assembleLine_of_comment {l : String} (h : l.toList.head? = some '#') : assembleLine l = some [] := by
  have hc : isComment l.toList = true := beq_iff_eq.mpr h
  rw [assembleLine, if_pos hc]

theorem assemble_comment_cons {l : String} (h : l.toList.head? = some '#') (ls : List String) :
    assemble (l :: ls) = assemble ls := by
  refine Option.ext fun w => ?_
  rw [assemble_cons_eq_some_iff, assembleLine_of_comment h]
  simp [eq_comm]

theorem assemble_append {l l' : List String} {w w' : List Byte} (h : assemble l = some w)
    (h' : assemble l' = some w') : assemble (l ++ l') = some (w ++ w') := by
  induction l generalizing w with
  | nil =>
    cases h
    exact h'
  | cons x xs ih =>
    obtain ⟨is, bs, hx, hxs, rfl⟩ := assemble_cons_eq_some_iff.mp h
    exact assemble_cons_eq_some_iff.mpr ⟨is, bs ++ w', hx, ih hxs, List.append_assoc _ _ _⟩

/-- No spelling is a comment, and none stands for two commands. -/
theorem assembleLine_of_mem : ∀ p ∈ scriptLines ++ scriptAliases, assembleLine p.1 = some [p.2] := by decide

/-- A program of known lines is their commands' words, one a line, in order. -/
theorem assemble_of_subset {ps : List (String × Instr)} (h : ps ⊆ scriptLines ++ scriptAliases) :
    assemble (ps.map Prod.fst) = some (ps.map fun p => (encode p.2).word) := by
  induction ps with
  | nil => rfl
  | cons p ps ih =>
    obtain ⟨hp, hps⟩ := List.cons_subset.mp h
    exact assemble_cons_eq_some_iff.mpr ⟨[p.2], _, assembleLine_of_mem p hp, ih hps, rfl⟩

/-- Each spelling by itself is its command's one word. -/
theorem assemble_singleton {l : String} {i : Instr} (h : (l, i) ∈ scriptLines ++ scriptAliases) :
    assemble [l] = some [(encode i).word] :=
  assemble_of_subset (ps := [(l, i)]) (List.cons_subset.mpr ⟨h, List.nil_subset _⟩)

/-! ### Composed commands (R71)

A composed command runs its second body before any completion, the two commands one after the other run it after the
first one's completion. The two agree because no body reads RESULT or TERR. -/

/-- The body acts the same after an OK completion, and keeps what that completion wrote. -/
def Body.CommutesWithOk (b : Body) : Prop := ∀ s, b (complete .ok s) = (complete .ok (b s).1, (b s).2)

theorem afterCall_complete_ok (call : BusCall) (s : State) :
    afterCall call (complete .ok s) = complete .ok (afterCall call s) := rfl

/-- The completion that comes last decides; an OK before it leaves TERR. -/
theorem complete_complete_ok (k : Completion) (s : State) : complete k (complete .ok s) = complete k s := rfl

theorem readBody_commutesWithOk (ch : Channel) : (readBody ch).CommutesWithOk := fun s => by
  have hp : readPermitted ch (complete .ok s) = readPermitted ch s := rfl
  simp only [readBody, hp, answerAt_complete, afterCall_complete_ok]
  cases readPermitted ch s with
  | false => rfl
  | true => cases s.answerAt 0 adcCall <;> rfl

theorem loadWords_complete_ok (n : Nat) : ∀ (k : Nat) (s : State),
    loadWords n k (complete .ok s) = (complete .ok (loadWords n k s).1, (loadWords n k s).2) := by
  induction n with
  | zero => exact fun _ _ => rfl
  | succ n ih =>
    intro k s
    cases ha : s.answerAt 0 (promCall k) with
    | err e =>
      rw [loadWords_succ_err ha, loadWords_succ_err ((answerAt_complete .ok s 0 _).trans ha)]
      rfl
    | ok hi lo x =>
      rw [loadWords_succ_ok ha, loadWords_succ_ok ((answerAt_complete .ok s 0 _).trans ha)]
      exact ih (k + 1) (setC k (be16 hi lo) (afterCall (promCall k) s))

theorem loadcalBody_commutesWithOk : loadcalBody.CommutesWithOk := fun s => by
  have hload : loadWords 8 0 (invalidateCal (complete .ok s)) = _ := loadWords_complete_ok 8 0 (invalidateCal s)
  rw [loadcalBody, loadcalBody, hload]
  obtain ⟨t, _ | e⟩ := loadWords 8 0 (invalidateCal s) <;> rfl

theorem resultCode_eq_ok_iff {k : Completion} : k.resultCode = .ok ↔ k = .ok := by
  cases k <;> simp [Completion.resultCode]

/-- A composed command is its first command and, if that completed OK, its second. -/
theorem runCommand_thenIfOk {a b : Body} (hb : b.CommutesWithOk) {s t : State} (h : runCommand a s = .next t) :
    runCommand (a.thenIfOk b) s = if t.result = .ok then runCommand b t else .next t := by
  obtain rfl := runCommand_next h
  simp only [complete_result, resultCode_eq_ok_iff, runCommand_eq]
  split_ifs with hk
  · rw [thenIfOk_of_ok (Prod.ext rfl hk), hk, hb, complete_complete_ok]
  · rw [thenIfOk_of_not_ok b rfl hk]

theorem exec_startInstr (ch : Channel) (s : State) : exec ch.startInstr s = runCommand (startBody ch) s := by
  cases ch <;> rfl

theorem exec_readInstr (ch : Channel) (s : State) : exec ch.readInstr s = runCommand (readBody ch) s := by
  cases ch <;> rfl

theorem exec_convertInstr (ch : Channel) (s : State) : exec ch.convertInstr s = runCommand (convertBody ch) s := by
  cases ch <;> rfl

/-! ### The settled statements -/

/-- Settles O3: one word for each command, the nibbles of a conversion byte, the fields of a PROM address. -/
theorem decodeOfEncode : Obligations.DecodeOfEncode := fun _ h => decode_encode h

/-- Settles O4: the fields the decoders look at are the whole word. -/
theorem encodeOfDecode : Obligations.EncodeOfDecode := fun _ _ h => ⟨wellFormed_of_decode h, encode_of_decode h⟩

/-- Settles O8: the bare word of an instruction is read under the instruction's own format, and decodes to it. -/
theorem presentedWordIsRun : Obligations.PresentedWordIsRun :=
  ⟨fun s _ hi => step_withFetchWord_of_isCommand hi s,
    fun s _ _ hwf hi hcmd => step_withFetchWord_of_not_isCommand hwf hi hcmd s⟩

/-- Settles O25: READ does not read the completion START wrote. -/
theorem convertIsStartThenRead : Obligations.ConvertIsStartThenRead := fun s t ch h => by
  rw [exec_startInstr] at h
  rw [exec_convertInstr, exec_readInstr]
  exact runCommand_thenIfOk (readBody_commutesWithOk ch) h

/-- Settles O27: LOADCAL does not read the completion RESET wrote. -/
theorem initIsResetThenLoadcal : Obligations.InitIsResetThenLoadcal := fun _ _ h =>
  runCommand_thenIfOk (a := resetBody) loadcalBody_commutesWithOk h

/-- Settles O1: the twelve words are the commands' encodings, and any word that decodes is one of them. -/
theorem legalCommandWords : Obligations.LegalCommandWords :=
  ⟨rfl, rfl, rfl, rfl, rfl, rfl, rfl, rfl, rfl, rfl, rfl, rfl, fun _ hw => decodeCmd_rejects_of_notMem hw⟩

/-- Settles O2: the clauses on the fields, and the completion of a rejected word. -/
theorem illegalCommandWords : Obligations.IllegalCommandWords := by
  refine ⟨fun w => ?_, fun _ _ _ _ hb hw hd => step_of_fetch_cmd_reject (fetch_of_script hb hw) hd⟩
  rw [← opField_eq, ← argField_eq]
  exact decodeCmd_rejects_iff w

/-- Settles O5: each word is the encoding of its instruction. -/
theorem sampleWordsDecode : Obligations.SampleWordsDecode :=
  ⟨decode_encode (i := .startT) rfl, decode_encode (i := .setwaterFresh) rfl, decode_encode (i := .getreading) rfl,
    decode_encode (i := .devReset) rfl, decode_encode (i := .devConvD2 8) rfl, decode_encode (i := .devPromRead 3) rfl,
    decode_encode (i := .devAdcRead) rfl⟩

/-- Settles O6: each line by its entry in the table of lines, programs by induction on their lines. -/
theorem scriptEncoding : Obligations.ScriptEncoding := by
  have hline := @assemble_singleton
  refine ⟨⟨hline (i := .init) ?_, hline (i := .reset) ?_, hline (i := .loadcal) ?_, hline (i := .startP) ?_,
    hline (i := .startT) ?_, hline (i := .readP) ?_, hline (i := .readT) ?_, hline (i := .convertP) ?_,
    hline (i := .convertT) ?_, hline (i := .setwaterFresh) ?_, hline (i := .setwaterSalt) ?_,
    hline (i := .getreading) ?_⟩, rfl, assemble_of_subset (ps := scriptLines) (List.subset_append_left _ _),
    fun _ ls h => assemble_comment_cons h ls, fun _ _ _ _ h h' => assemble_append h h'⟩
  all_goals simp [scriptLines]

/-- Settles O38: the reset control byte is one write. -/
theorem deviceResetWord : Obligations.DeviceResetWord := ⟨rfl, fun _ => rfl⟩

/-- Settles O39: the byte is the sum, whose nibbles are the channel and the resolution. -/
theorem deviceConversionWords : Obligations.DeviceConversionWords := by
  refine ⟨fun r hr => ⟨encode_devConvD1 r, encode_devConvD2 r, fun ch => ?_⟩, fun s r hr => ⟨?_, ?_⟩,
    startByte_eq_convByte⟩
  · obtain ⟨hhigh, hchannel⟩ := extractLsb'_convByte hr ch
    refine ⟨(toNat_convByte hr ch).trans ?_, hhigh, hchannel.trans ?_, (fields_convByte hr ch).2⟩
    · cases ch <;> rfl
    · cases ch <;> rfl
  · exact conversionWord_of_inDomain hr .pressure s
  · rw [← convByte_temperature]
    exact conversionWord_of_inDomain hr .temperature s

/-- Settles O40: the address is the sum, whose fields are 0xA, the index and 0. -/
theorem devicePromWords : Obligations.DevicePromWords := by
  refine ⟨by decide, fun k hk => ?_, fun s k hk => execDevPromRead_of_inDomain hk s⟩
  obtain ⟨hop, heven, hindex⟩ := fields_promAddr hk
  refine ⟨BitVec.eq_of_toNat_eq hop, hindex, BitVec.eq_of_toNat_eq ?_⟩
  rw [getLsbD_zero_eq_false_iff] at heven
  rw [BitVec.extractLsb'_toNat, Nat.shiftRight_zero]
  exact heven

/-- Settles O41: the ADC register is one read of three bytes. -/
theorem deviceAdcWord : Obligations.DeviceAdcWord := ⟨rfl, fun _ => rfl⟩

/-- Settles O60: each name by its entry in the table of names. -/
theorem scriptAliases : Obligations.ScriptAliases := by
  have hname := @assemble_singleton
  refine ⟨hname (i := .init) ?_, hname (i := .reset) ?_, hname (i := .loadcal) ?_, hname (i := .loadcal) ?_,
    hname (i := .startP) ?_, hname (i := .startT) ?_, hname (i := .readP) ?_, hname (i := .readT) ?_,
    hname (i := .readP) ?_, hname (i := .readT) ?_, hname (i := .convertP) ?_, hname (i := .convertT) ?_,
    hname (i := .setwaterFresh) ?_, hname (i := .setwaterSalt) ?_, hname (i := .getreading) ?_⟩
  all_goals simp [Sys2Proof.scriptAliases]

end Sys2Proof.Machine

/-! PROOFS. The rules of 40_calibration_crc.md: the CRC-4 (R84 to R88, R91 to R94) and LOADCAL (R80 to R83, R89). The
bit-step is linear over XOR, so the remainder of a table is the XOR of one term per word; the structure of the
remainder (R92) and the flips (R93) are read off that sum. LOADCAL is settled by the state it is in after `n` of its
reads. -/

namespace Sys2Proof.Machine

/-! ### Bit-steps (R87) -/

theorem getLsbD_fifteen (r : Word16) : r.getLsbD 15 = decide (32768 ≤ r.toNat) :=
  (BitVec.msb_eq_getLsbD_last r).symm.trans (BitVec.msb_eq_decide r)

/-- The constant of the reduction as a summand, for the laws of XOR. -/
theorem crcBitStep_eq (r : Word16) : crcBitStep r = (r <<< 1) ^^^ (if r.getLsbD 15 then 0x3000#16 else 0#16) := by
  unfold crcBitStep
  split
  · rfl
  · exact BitVec.xor_zero.symm

theorem crcBitStep_of_lt {r : Word16} (h : r.toNat < 32768) : crcBitStep r = r <<< 1 := by
  rw [crcBitStep, getLsbD_fifteen, if_neg (by simpa using h)]

theorem crcBitStep_of_ge {r : Word16} (h : 32768 ≤ r.toNat) : crcBitStep r = (r <<< 1) ^^^ 0x3000#16 := by
  rw [crcBitStep, getLsbD_fifteen, if_pos (by simpa using h)]

theorem toNat_shiftLeft_one (r : Word16) : (r <<< 1).toNat = (2 * r.toNat) % 65536 := by
  rw [BitVec.toNat_shiftLeft, Nat.shiftLeft_eq, Nat.mul_comm, pow_one]

theorem crcBitStep_xor (a b : Word16) : crcBitStep (a ^^^ b) = crcBitStep a ^^^ crcBitStep b := by
  have hreduce : (if (a ^^^ b).getLsbD 15 then 0x3000#16 else 0#16) =
      (if a.getLsbD 15 then 0x3000#16 else 0#16) ^^^ (if b.getLsbD 15 then 0x3000#16 else 0#16) := by
    rw [BitVec.getLsbD_xor]
    cases a.getLsbD 15 <;> cases b.getLsbD 15 <;> rfl
  rw [crcBitStep_eq, crcBitStep_eq, crcBitStep_eq, hreduce, BitVec.shiftLeft_xor_distrib]
  ac_rfl

/-- Below bit 12 the bit-step only shifts. -/
theorem getLsbD_crcBitStep {j : Nat} (hj : j < 12) (r : Word16) :
    (crcBitStep r).getLsbD j = (decide (0 < j) && r.getLsbD (j - 1)) := by
  have hreduce : (if r.getLsbD 15 then 0x3000#16 else 0#16).getLsbD j = false := by
    split
    · revert j; decide
    · exact BitVec.getLsbD_zero
  have hj' : j < 16 := by omega
  rw [crcBitStep_eq, BitVec.getLsbD_xor, hreduce, Bool.xor_false, BitVec.getLsbD_shiftLeft, decide_eq_true hj',
    Bool.true_and]
  congr 1
  simp [Nat.pos_iff_ne_zero]

theorem extractLsb'_crcBitStep (r : Word16) : (crcBitStep r).extractLsb' 12 4 =
    (r.extractLsb' 11 4) ^^^ (if r.getLsbD 15 then 0b0011#4 else 0#4) := by
  have hshift : (r <<< 1).extractLsb' 12 4 = r.extractLsb' 11 4 := by
    refine BitVec.eq_of_getLsbD_eq fun j hj => ?_
    have hj' : 12 + j < 16 ∧ ¬12 + j < 1 ∧ 12 + j - 1 = 11 + j := by omega
    simp only [BitVec.getLsbD_extractLsb', BitVec.getLsbD_shiftLeft, hj, hj', decide_true, decide_false, Bool.not_false,
      Bool.true_and]
  have hreduce : (if r.getLsbD 15 then 0x3000#16 else 0#16).extractLsb' 12 4 =
      if r.getLsbD 15 then 0b0011#4 else 0#4 := by
    split <;> rfl
  rw [crcBitStep_eq, BitVec.extractLsb'_xor, hshift, hreduce]

theorem crcBitSteps_add (m n : Nat) (r : Word16) : crcBitSteps (m + n) r = crcBitSteps n (crcBitSteps m r) := by
  induction m generalizing r with
  | zero => rw [Nat.zero_add]; rfl
  | succ m ih => rw [Nat.succ_add]; exact ih (crcBitStep r)

theorem crcBitSteps_xor (n : Nat) (a b : Word16) :
    crcBitSteps n (a ^^^ b) = crcBitSteps n a ^^^ crcBitSteps n b := by
  induction n generalizing a b with
  | zero => rfl
  | succ n ih => exact (congrArg _ (crcBitStep_xor a b)).trans (ih _ _)

@[simp] theorem crcBitSteps_zeros (n : Nat) : crcBitSteps n 0#16 = 0#16 := by
  induction n with
  | zero => rfl
  | succ n ih => exact ih

/-- No bit reaches bit 15 before its last step, so nothing is XORed in. -/
theorem crcBitSteps_eq_shiftLeft (n : Nat) {r : Word16} (h : r.toNat * 2 ^ n < 65536) :
    crcBitSteps n r = r <<< n := by
  induction n generalizing r with
  | zero => exact (BitVec.shiftLeft_zero r).symm
  | succ n ih =>
    rw [pow_succ'] at h
    have htop : r.toNat < 32768 := by nlinarith [Nat.one_le_two_pow (n := n)]
    have hstep : (r <<< 1).toNat = 2 * r.toNat := by rw [toNat_shiftLeft_one]; omega
    rw [crcBitSteps, crcBitStep_of_lt htop, ih (by rw [hstep]; linarith), ← BitVec.shiftLeft_add, Nat.add_comm]

/-- A shift brings a zero in from below and the constant has no bit below bit 12 (R92 (1)). -/
theorem getLsbD_crcBitSteps (n : Nat) {j : Nat} (hj : j < n) (hj' : j < 12) (r : Word16) :
    (crcBitSteps n r).getLsbD j = false := by
  induction n generalizing j with
  | zero => omega
  | succ n ih =>
    rw [crcBitSteps_add n 1]
    change (crcBitStep _).getLsbD j = false
    rw [getLsbD_crcBitStep hj']
    cases j with
    | zero => rfl
    | succ j => exact ih (by omega) (by omega)

/-! ### Half-steps and words (R85, R86) -/

theorem shiftLeft_highByte_xor_lowByte (w : Word16) :
    ((w.extractLsb' 8 8).setWidth 16 <<< 8) ^^^ (w.extractLsb' 0 8).setWidth 16 = w := by
  refine BitVec.eq_of_getLsbD_eq fun j hj => ?_
  by_cases h : j < 8
  · simp [hj, h]
  · have h' : j - 8 < 16 ∧ j - 8 < 8 ∧ 8 + (j - 8) = j := by omega
    simp [hj, h, h']

theorem crcHalfStep_eq (r : Word16) (b : Byte) :
    crcHalfStep r b = crcBitSteps 8 r ^^^ (b.setWidth 16 <<< 8) := by
  rw [crcHalfStep, crcBitSteps_xor, crcBitSteps_eq_shiftLeft 8 (r := b.setWidth 16)]
  have := b.isLt
  rw [BitVec.toNat_setWidth]
  omega

/-- A word passes through the remainder as if it stood there at once: its high byte is shifted into place by the
half-step that takes it in. -/
theorem foldl_wordBytes (r w : Word16) :
    (wordBytes w).foldl crcHalfStep r = crcBitSteps 16 r ^^^ crcBitSteps 8 w := by
  calc (wordBytes w).foldl crcHalfStep r
      = crcBitSteps 8 (crcHalfStep r (w.extractLsb' 8 8) ^^^ (w.extractLsb' 0 8).setWidth 16) := rfl
    _ = crcBitSteps 8 (crcBitSteps 8 r ^^^ w) := by
        rw [crcHalfStep_eq, BitVec.xor_assoc, shiftLeft_highByte_xor_lowByte]
    _ = crcBitSteps 16 r ^^^ crcBitSteps 8 w := by rw [crcBitSteps_xor, ← crcBitSteps_add]

/-- The remainder is the XOR of one term per word: the bit-steps the word has still to go. -/
theorem crcRemainder_eq (ws : Vector Word16 8) : crcRemainder ws =
    crcBitSteps 120 ws[0] ^^^ crcBitSteps 104 ws[1] ^^^ crcBitSteps 88 ws[2] ^^^ crcBitSteps 72 ws[3] ^^^
      crcBitSteps 56 ws[4] ^^^ crcBitSteps 40 ws[5] ^^^ crcBitSteps 24 ws[6] ^^^
      crcBitSteps 8 (ws[7] &&& 0xFFF0#16) := by
  simp only [crcRemainder, crcStream, crcMessage, List.foldl_flatMap, foldl_wordBytes, List.foldl_cons, List.foldl_nil,
    crcBitSteps_xor, ← crcBitSteps_add, crcBitSteps_zeros, BitVec.zero_xor]

/-! ### Tables (R84, R88, R92) -/

/-- The low nibble of word 7 is masked away before the CRC is computed (R84). -/
theorem crcMessage_set_seven {ws : Vector Word16 8} {v : Word16} (h : v &&& 0xFFF0#16 = ws[7] &&& 0xFFF0#16) :
    crcMessage (ws.set 7 v) = crcMessage ws := by
  simp [crcMessage, h]

theorem crc4_congr {ws ws' : Vector Word16 8} (h : crcMessage ws = crcMessage ws') : crc4 ws = crc4 ws' := by
  rw [crc4, crc4, crcRemainder, crcRemainder, crcStream, crcStream, h]

@[simp] theorem getElem_xorWords (a b : Vector Word16 8) {i : Nat} (hi : i < 8) :
    (xorWords a b)[i] = a[i] ^^^ b[i] := Vector.getElem_zipWith hi

theorem crcRemainder_xorWords (a b : Vector Word16 8) :
    crcRemainder (xorWords a b) = crcRemainder a ^^^ crcRemainder b := by
  have hmask : (a[7] ^^^ b[7]) &&& 0xFFF0#16 = (a[7] &&& 0xFFF0#16) ^^^ (b[7] &&& 0xFFF0#16) :=
    BitVec.eq_of_getLsbD_eq fun j _ => by
      simp only [BitVec.getLsbD_and, BitVec.getLsbD_xor, Bool.and_xor_distrib_right]
  simp only [crcRemainder_eq, getElem_xorWords, crcBitSteps_xor, hmask]
  ac_rfl

theorem crc4_xorWords (a b : Vector Word16 8) : crc4 (xorWords a b) = crc4 a ^^^ crc4 b := by
  rw [crc4, crcRemainder_xorWords, BitVec.extractLsb'_xor]
  rfl

theorem crcRemainder_zeros : crcRemainder (Vector.replicate 8 0#16) = 0#16 := by
  simp [crcRemainder_eq]

theorem crc4_zeros : crc4 (Vector.replicate 8 0#16) = 0#4 := by
  rw [crc4, crcRemainder_zeros]
  rfl

/-! ### One flipped bit (R93) -/

theorem streamPosition_lt_iff (k : Fin 8) (b : Fin 16) : streamPosition k b < 124 ↔ (k = 7 → 4 ≤ b.val) := by
  simp only [streamPosition]
  omega

theorem shiftLeft_one_and_mask :
    ∀ b : Fin 16, (1#16 <<< b.val) &&& 0xFFF0#16 = if 4 ≤ b.val then 1#16 <<< b.val else 0#16 := by
  decide

theorem extractLsb'_shiftLeft_one_eq_zero_iff :
    ∀ b : Fin 16, (1#16 <<< b.val).extractLsb' 0 4 = 0#4 ↔ 4 ≤ b.val := by
  decide

/-- The table with the one bit `b` of word `k` set, and all others 0. -/
def oneBit (k : Fin 8) (b : Fin 16) : Vector Word16 8 := (Vector.replicate 8 0#16).set k (1#16 <<< b.val)

theorem flipBit_eq_xorWords (ws : Vector Word16 8) (k : Fin 8) (b : Fin 16) :
    flipBit ws k b = xorWords ws (oneBit k b) := by
  refine Vector.ext fun i hi => ?_
  simp only [flipBit, oneBit, getElem_xorWords, Vector.getElem_set, Vector.getElem_replicate]
  split
  · next h => subst h; rfl
  · exact BitVec.xor_zero.symm

/-- A message bit is worth the bit-steps it has still to go from bit 0 of the remainder. -/
theorem crcRemainder_oneBit {k : Fin 8} {b : Fin 16} (h : streamPosition k b < 124) :
    crcRemainder (oneBit k b) = crcBitSteps (135 - streamPosition k b) 1#16 := by
  have hmask : k = 7 → (1#16 <<< b.val) &&& 0xFFF0#16 = 1#16 <<< b.val := fun hk =>
    (shiftLeft_one_and_mask b).trans (if_pos ((streamPosition_lt_iff k b).mp h hk))
  have hbit : crcBitSteps b.val 1#16 = 1#16 <<< b.val :=
    crcBitSteps_eq_shiftLeft b.val (by simpa using Nat.pow_lt_pow_right one_lt_two b.isLt)
  have hsteps : 135 - streamPosition k b = b.val + (120 - 16 * k.val) := by simp only [streamPosition]; omega
  rw [hsteps, crcBitSteps_add, hbit, crcRemainder_eq, oneBit]
  fin_cases k <;> simp [hmask]

theorem crcRemainder_oneBit_of_ge {k : Fin 8} {b : Fin 16} (h : 124 ≤ streamPosition k b) :
    crcRemainder (oneBit k b) = 0#16 := by
  have hlow : k = 7 ∧ ¬4 ≤ b.val := by
    have := (streamPosition_lt_iff k b).not.mp h.not_gt
    omega
  obtain ⟨rfl, hb⟩ := hlow
  simp [crcRemainder_eq, oneBit, shiftLeft_one_and_mask, hb]

theorem storedNibble_xorWords (a b : Vector Word16 8) :
    storedNibble (xorWords a b) = storedNibble a ^^^ storedNibble b := by
  rw [storedNibble, getElem_xorWords, BitVec.extractLsb'_xor]
  rfl

/-- The stored nibble is the last four bits of the stream. -/
theorem storedNibble_oneBit_eq_zero_iff (k : Fin 8) (b : Fin 16) :
    storedNibble (oneBit k b) = 0#4 ↔ streamPosition k b < 124 := by
  rw [streamPosition_lt_iff, storedNibble, oneBit, Vector.getElem_set]
  by_cases hk : k = 7
  · subst hk
    simpa using extractLsb'_shiftLeft_one_eq_zero_iff b
  · have hk' : k.val ≠ 7 := fun h => hk (Fin.ext h)
    simp [hk, hk']

/-- `x ^ m` modulo `x^4 + x + 1`: bit 12 of a remainder stands for 1, and a bit-step multiplies by `x` (R92 (2)). -/
def powerOfX (m : Nat) : Nibble := (crcBitSteps m 0x1000#16).extractLsb' 12 4

/-- The order of `x` is 15 (R93). -/
theorem powerOfX_periodic : Function.Periodic powerOfX 15 := fun m => by
  have horder : crcBitSteps 15 0x1000#16 = 0x1000#16 := by decide +kernel
  rw [powerOfX, Nat.add_comm, crcBitSteps_add, horder, powerOfX]

theorem powerOfX_ne_zero (m : Nat) : powerOfX m ≠ 0#4 := by
  have hcycle : ∀ i : Fin 15, powerOfX i.val ≠ 0#4 := by decide +kernel
  rw [← powerOfX_periodic.map_mod_nat]
  exact hcycle ⟨m % 15, Nat.mod_lt m (by decide)⟩

/-- The first twelve bit-steps bring the bit to bit 12, and from there on each is a power of `x`. -/
theorem crc4_oneBit {k : Fin 8} {b : Fin 16} (h : streamPosition k b < 124) :
    crc4 (oneBit k b) = powerOfX (123 - streamPosition k b) := by
  have hfirst : crcBitSteps 12 1#16 = 0x1000#16 := by decide
  have hsteps : 135 - streamPosition k b = 12 + (123 - streamPosition k b) := by omega
  rw [crc4, crcRemainder_oneBit h, hsteps, crcBitSteps_add, hfirst, powerOfX]

theorem crc4_flipBit (ws : Vector Word16 8) (k : Fin 8) (b : Fin 16) :
    crc4 (flipBit ws k b) = crc4 ws ^^^ crc4 (oneBit k b) := by
  rw [flipBit_eq_xorWords, crc4_xorWords]

theorem storedNibble_flipBit (ws : Vector Word16 8) (k : Fin 8) (b : Fin 16) :
    storedNibble (flipBit ws k b) = storedNibble ws ^^^ storedNibble (oneBit k b) := by
  rw [flipBit_eq_xorWords, storedNibble_xorWords]

/-- A flip of a message bit changes what is computed and not what is read. -/
theorem flipBit_of_lt (ws : Vector Word16 8) {k : Fin 8} {b : Fin 16} (h : streamPosition k b < 124) :
    crc4 (flipBit ws k b) ≠ crc4 ws ∧ storedNibble (flipBit ws k b) = storedNibble ws := by
  rw [crc4_flipBit, storedNibble_flipBit, (storedNibble_oneBit_eq_zero_iff k b).mpr h, BitVec.xor_zero, crc4_oneBit h]
  exact ⟨fun heq => powerOfX_ne_zero _ (by simpa using heq), rfl⟩

/-- A flip of a bit of the stored nibble changes what is read and not what is computed. -/
theorem flipBit_of_ge (ws : Vector Word16 8) {k : Fin 8} {b : Fin 16} (h : 124 ≤ streamPosition k b) :
    crc4 (flipBit ws k b) = crc4 ws ∧ storedNibble (flipBit ws k b) ≠ storedNibble ws := by
  have hread := (storedNibble_oneBit_eq_zero_iff k b).not.mpr h.not_gt
  have hcomputed : crc4 (oneBit k b) = 0#4 := by rw [crc4, crcRemainder_oneBit_of_ge h]; rfl
  rw [crc4_flipBit, storedNibble_flipBit, hcomputed, BitVec.xor_zero]
  exact ⟨rfl, fun heq => hread (by simpa using heq)⟩

/-- The two powers of `x` are equal and cancel. -/
theorem crc4_flipBit_flipBit (ws : Vector Word16 8) {k k' : Fin 8} {b b' : Fin 16} (h : streamPosition k b < 124)
    (h' : streamPosition k' b' < 124) (hmod : streamPosition k b % 15 = streamPosition k' b' % 15) :
    crc4 (flipBit (flipBit ws k b) k' b') = crc4 ws := by
  have hpower : powerOfX (123 - streamPosition k b) = powerOfX (123 - streamPosition k' b') := by
    rw [← powerOfX_periodic.map_mod_nat, ← powerOfX_periodic.map_mod_nat (123 - streamPosition k' b')]
    congr 1
    omega
  rw [crc4_flipBit, crc4_flipBit, crc4_oneBit h, crc4_oneBit h', hpower, BitVec.xor_assoc, BitVec.xor_self,
    BitVec.xor_zero]

theorem crcMatches_eq_true_iff (ws : Vector Word16 8) : crcMatches ws = true ↔ crc4 ws = storedNibble ws := beq_iff_eq

theorem crcMatches_eq_decide (ws : Vector Word16 8) : crcMatches ws = decide (crc4 ws = storedNibble ws) := rfl

/-! ### The CRC over natural numbers (R91) -/

/-- The bit-step of R87 over natural numbers. -/
def bitStepNat (r : Nat) : Nat := if 32768 ≤ r then ((2 * r) % 65536) ^^^ 0x3000 else (2 * r) % 65536

/-- The half-step of R86 over natural numbers, on the byte `b`. -/
def halfStepNat (r b : Nat) : Nat := (List.range 8).foldl (fun r _ => bitStepNat r) (r ^^^ b)

/-- Byte `k` of the stream of R85, from the message of R84 over natural numbers. -/
def streamByteNat (ws : Vector Word16 8) (k : Nat) : Nat :=
  let m : List Nat := [ws[0].toNat, ws[1].toNat, ws[2].toNat, ws[3].toNat, ws[4].toNat, ws[5].toNat, ws[6].toNat,
    16 * (ws[7].toNat / 16)]
  if k % 2 = 0 then m.getD (k / 2) 0 / 256 else m.getD (k / 2) 0 % 256

theorem toNat_crcBitStep (r : Word16) : (crcBitStep r).toNat = bitStepNat r.toNat := by
  unfold bitStepNat
  split
  · next h => rw [crcBitStep_of_ge h, BitVec.toNat_xor, toNat_shiftLeft_one]; rfl
  · next h => rw [crcBitStep_of_lt (Nat.lt_of_not_ge h), toNat_shiftLeft_one]

theorem toNat_crcBitSteps (n : Nat) (r : Word16) : (crcBitSteps n r).toNat = bitStepNat^[n] r.toNat := by
  induction n generalizing r with
  | zero => rfl
  | succ n ih => rw [crcBitSteps, ih, toNat_crcBitStep, Function.iterate_succ_apply]

theorem toNat_crcHalfStep (r : Word16) (b : Byte) : (crcHalfStep r b).toNat = halfStepNat r.toNat b.toNat := by
  have hbyte : (b.setWidth 16).toNat = b.toNat := BitVec.toNat_setWidth_of_le (by decide)
  rw [crcHalfStep, toNat_crcBitSteps, BitVec.toNat_xor, hbyte, halfStepNat, List.foldl_const, List.length_range]

theorem toNat_highByte (w : Word16) : (w.extractLsb' 8 8).toNat = w.toNat / 256 := by
  have := w.isLt
  rw [BitVec.extractLsb'_toNat, Nat.shiftRight_eq_div_pow]
  omega

theorem toNat_lowByte (w : Word16) : (w.extractLsb' 0 8).toNat = w.toNat % 256 := by
  rw [BitVec.extractLsb'_toNat, Nat.shiftRight_zero]

/-- The mask of R84 clears the last of the four nibbles. -/
theorem and_mask_eq_append (w : Word16) : w &&& 0xFFF0#16 = w.extractLsb' 4 12 ++ 0#4 := by
  have hbits : ∀ j, j < 16 → (0xFFF0#16).getLsbD j = !decide (j < 4) := by decide
  refine BitVec.eq_of_getLsbD_eq fun j hj => ?_
  rw [BitVec.getLsbD_and, hbits j hj, BitVec.getLsbD_append]
  by_cases h : j < 4
  · simp [h]
  · have h' : j - 4 < 12 ∧ 4 + (j - 4) = j := by omega
    simp [h, h']

theorem toNat_and_mask (w : Word16) : (w &&& 0xFFF0#16).toNat = 16 * (w.toNat / 16) := by
  have := w.isLt
  rw [and_mask_eq_append, toNat_append_eq_mul_add, BitVec.extractLsb'_toNat, Nat.shiftRight_eq_div_pow,
    BitVec.toNat_zero]
  omega

theorem map_toNat_crcStream (ws : Vector Word16 8) :
    (crcStream ws).map BitVec.toNat = (List.range 16).map (streamByteNat ws) := by
  simp only [crcStream, crcMessage, wordBytes, List.flatMap_cons, List.flatMap_nil, List.cons_append, List.nil_append,
    List.map_cons, List.map_nil, toNat_highByte, toNat_lowByte, toNat_and_mask]
  rfl

theorem toNat_crcRemainder (ws : Vector Word16 8) :
    (crcRemainder ws).toNat = (List.range 16).foldl (fun r k => halfStepNat r (streamByteNat ws k)) 0 := by
  calc (crcRemainder ws).toNat
      = (crcStream ws).foldl (fun r b => halfStepNat r b.toNat) (0#16).toNat :=
        (List.foldl_hom BitVec.toNat (g₁ := crcHalfStep) (g₂ := fun r b => halfStepNat r b.toNat)
          fun r b => (toNat_crcHalfStep r b).symm).symm
    _ = ((crcStream ws).map BitVec.toNat).foldl halfStepNat 0 := by
        rw [List.foldl_map]
        rfl
    _ = (List.range 16).foldl (fun r k => halfStepNat r (streamByteNat ws k)) 0 := by
        rw [map_toNat_crcStream, List.foldl_map]

theorem toNat_crc4 (ws : Vector Word16 8) : (crc4 ws).toNat = (crcRemainder ws).toNat / 4096 := by
  have := (crcRemainder ws).isLt
  rw [crc4, BitVec.extractLsb'_toNat, Nat.shiftRight_eq_div_pow]
  omega

theorem toNat_storedNibble (ws : Vector Word16 8) : (storedNibble ws).toNat = ws[7].toNat % 16 := by
  rw [storedNibble, BitVec.extractLsb'_toNat, Nat.shiftRight_zero]

theorem crcMatches_eq_true_iff_toNat (ws : Vector Word16 8) :
    crcMatches ws = true ↔ (crc4 ws).toNat = ws[7].toNat % 16 := by
  rw [crcMatches_eq_true_iff, ← BitVec.toNat_inj, toNat_storedNibble]

/-! ### LOADCAL (R80 to R83, R89) -/

/-- LOADCAL invalidates first (R81), so it cannot tell whether that has been done before. -/
theorem exec_loadcal_invalidateCal (s : State) : exec .loadcal (invalidateCal s) = exec .loadcal s := rfl

theorem exec_loadcal_verdictInv {s t : State} (h : exec .loadcal s = .next t) : VerdictInv t :=
  exec_preserves (fun _ _ => Update.keeps_verdictInv) (fun _ _ hu => hu)
    ((exec_loadcal_invalidateCal s).trans h) fun hcal => nomatch hcal

/-- The state after the first `n` PROM words have arrived with the bytes `bytes` (R82). -/
def afterWords (bytes : Nat → Byte × Byte × Byte) (n : Nat) (s : State) : State :=
  { s with
    c := wordsAfter s.c n bytes
    wordsRead := n
    trace := s.trace ++ (List.range n).map (promEvent bytes)
    calls := s.calls + n
    answers := s.answers.drop n }

theorem wordsAfter_zero (c : Vector Word16 8) (bytes : Nat → Byte × Byte × Byte) : wordsAfter c 0 bytes = c := by
  refine Vector.ext fun i hi => ?_
  simp [wordsAfter]

theorem wordsAfter_succ (c : Vector Word16 8) (n : Nat) (bytes : Nat → Byte × Byte × Byte) :
    wordsAfter c (n + 1) bytes = (wordsAfter c n bytes).setIfInBounds n (be16 (bytes n).1 (bytes n).2.1) := by
  refine Vector.ext fun i hi => ?_
  simp only [wordsAfter, Vector.getElem_setIfInBounds, Vector.getElem_ofFn, be16_eq_append]
  obtain hlt | rfl | hgt := Nat.lt_trichotomy i n
  · rw [if_pos (by omega), if_neg (by omega), if_pos hlt]
  · rw [if_pos (by omega), if_pos rfl]
  · rw [if_neg (by omega), if_neg (by omega), if_neg (by omega)]

theorem afterWords_zero {bytes : Nat → Byte × Byte × Byte} {s : State} (h : s.wordsRead = 0) :
    afterWords bytes 0 s = s := by
  simp only [afterWords, wordsAfter_zero, List.range_zero, List.map_nil, List.append_nil, Nat.add_zero, List.drop_zero]
  rw [← h]

theorem answerAt_afterWords (bytes : Nat → Byte × Byte × Byte) (n k : Nat) (s : State) (call : BusCall) :
    (afterWords bytes n s).answerAt k call = s.answerAt (n + k) call := by
  simp only [State.answerAt, afterWords, List.getElem?_drop, Nat.add_assoc]

theorem answerAt_zero_afterWords (bytes : Nat → Byte × Byte × Byte) (n : Nat) (s : State) (call : BusCall) :
    (afterWords bytes n s).answerAt 0 call = s.answerAt n call := answerAt_afterWords bytes n 0 s call

theorem afterWords_succ {bytes : Nat → Byte × Byte × Byte} {n : Nat} {s : State}
    (h : s.answerAt n (promCall n) = .ok (bytes n).1 (bytes n).2.1 (bytes n).2.2) :
    setC n (be16 (bytes n).1 (bytes n).2.1) (afterCall (promCall n) (afterWords bytes n s)) =
      afterWords bytes (n + 1) s := by
  have hevent : busEvent (promCall n) ((afterWords bytes n s).answerAt 0 (promCall n)) = promEvent bytes n := by
    rw [answerAt_zero_afterWords, h]
    rfl
  simp only [setC, afterCall, hevent]
  simp [afterWords, wordsAfter_succ, List.range_succ, Nat.add_assoc]

/-- As far as the reads are answered, loading is a matter of counting. -/
theorem loadWords_of_answered {bytes : Nat → Byte × Byte × Byte} {s : State} (hread : s.wordsRead = 0) {n : Nat}
    (m : Nat) (h : PromAnswered s 0 n bytes) : loadWords (n + m) 0 s = loadWords m n (afterWords bytes n s) := by
  induction n generalizing m with
  | zero => rw [Nat.zero_add, afterWords_zero hread]
  | succ n ih =>
    have hn : s.answerAt n (promCall n) = .ok (bytes n).1 (bytes n).2.1 (bytes n).2.2 := by
      simpa using h n (Nat.lt_succ_self n)
    rw [Nat.add_assoc, Nat.add_comm 1, ih (m + 1) fun k hk => h k (Nat.lt_succ_of_lt hk),
      loadWords_succ_ok ((answerAt_zero_afterWords bytes n s _).trans hn), afterWords_succ hn]

theorem loadcalBody_of_answered {s : State} {bytes : Nat → Byte × Byte × Byte} (h : PromAnswered s 0 8 bytes) :
    loadcalBody s = (recordCrc (afterWords bytes 8 (invalidateCal s)),
      if crcMatches (wordsAfter s.c 8 bytes) then .ok else .integrityError) := by
  have hload : loadWords 8 0 (invalidateCal s) = (afterWords bytes 8 (invalidateCal s), none) :=
    loadWords_of_answered (s := invalidateCal s) rfl 0 h
  rw [loadcalBody, hload]
  rfl

/-- A verdict is written to RESULT and leaves TERR. -/
theorem complete_verdict (b : Bool) (s : State) : complete (if b then .ok else .integrityError) s =
    { s with result := if b then .ok else .integrityError } := by
  cases b <;> rfl

theorem loadcalBody_of_first_failure {s : State} {j : Nat} {bytes : Nat → Byte × Byte × Byte} {e : TErr} (hj : j < 8)
    (h : PromAnswered s 0 j bytes) (herr : s.answerAt j (promCall j) = .err e) :
    loadcalBody s = (afterCall (promCall j) (afterWords bytes j (invalidateCal s)), .transportError e) := by
  have hrest : 8 = j + (7 - j + 1) := by omega
  refine loadcalBody_of_loadWords_err ?_
  rw [hrest, loadWords_of_answered (s := invalidateCal s) rfl _ h]
  exact loadWords_succ_err ((answerAt_zero_afterWords bytes j (invalidateCal s) _).trans herr)

/-! ### The settled statements -/

/-- Settles O15: the structure is that of a shift with a constant XORed in at bit 12. -/
theorem crcStructure : Obligations.CrcStructure := by
  refine ⟨fun rem b => BitVec.eq_of_getLsbD_eq fun j hj => ?_, extractLsb'_crcBitStep, crc4_xorWords, fun ws => ?_,
    crc4_zeros, by decide⟩
  · have hlow := getLsbD_crcBitSteps 8 hj (by omega) (rem ^^^ b.setWidth 16)
    simpa [hj, crcHalfStep] using hlow
  · exact crc4_congr (crcMessage_set_seven (by rw [BitVec.and_assoc, BitVec.and_self]))

/-- Settles O16: a flip adds the CRC of a one-bit table, a power of `x`, or flips a bit of the stored nibble. -/
theorem singleBitFlipsAreDetected : Obligations.SingleBitFlipsAreDetected := by
  refine ⟨fun ws k b hvalid => ?_, fun ws k b => ⟨flipBit_of_lt ws, flipBit_of_ge ws⟩,
    fun ws _ _ _ _ => crc4_flipBit_flipBit ws, by decide +kernel⟩
  rw [crcMatches_eq_true_iff] at hvalid
  refine Bool.eq_false_iff.mpr fun hflipped => ?_
  rw [crcMatches_eq_true_iff] at hflipped
  obtain h | h := Nat.lt_or_ge (streamPosition k b) 124
  · obtain ⟨hcomputed, hread⟩ := flipBit_of_lt ws h
    exact hcomputed (hflipped.trans (hread.trans hvalid.symm))
  · obtain ⟨hcomputed, hread⟩ := flipBit_of_ge ws h
    exact hread (hflipped.symm.trans (hcomputed.trans hvalid))

/-- Settles O18: the eight words have arrived, then the verdict is recorded. -/
theorem loadcalLoadsAndJudges : Obligations.LoadcalLoadsAndJudges := fun s bytes h => by
  change runCommand loadcalBody s = _
  rw [runCommand_eq, loadcalBody_of_answered h, complete_verdict]
  simp only [recordCrc, afterWords, crcMatches_eq_decide, decide_eq_true_eq]
  rfl

/-- Settles O19: `j` words have arrived, and the failed read is the last event. -/
theorem loadcalReadFails : Obligations.LoadcalReadFails := fun s j bytes e hj h herr => by
  have hanswer : (afterWords bytes j (invalidateCal s)).answerAt 0 (promCall j) = .err e :=
    (answerAt_zero_afterWords bytes j (invalidateCal s) _).trans herr
  change runCommand loadcalBody s = _
  rw [runCommand_eq, loadcalBody_of_first_failure hj h herr, afterCall, hanswer]
  simp only [afterWords, List.tail_drop]
  rfl

/-- Settles O59: the remainder step by step, and LOADCAL by the invariant of its verdict. -/
theorem crcIsTheBlock : Obligations.CrcIsTheBlock := by
  refine ⟨fun ws => ⟨toNat_crcRemainder ws, ?_, toNat_storedNibble ws⟩, fun s t h hcal => ?_⟩
  · exact (toNat_crc4 ws).trans (congrArg (· / 4096) (toNat_crcRemainder ws))
  · obtain ⟨_, hread, hrem, hcalc, hok⟩ := exec_loadcal_verdictInv h hcal
    exact ⟨hrem, hcalc, hread, hok ▸ crcMatches_eq_true_iff_toNat t.c⟩

/-- Settles O13: by the value of bit 15. -/
theorem crcBitStepRule : Obligations.CrcBitStepRule := fun rem =>
  ⟨fun h => (toNat_crcBitStep rem).trans (if_pos h), fun h => (toNat_crcBitStep rem).trans (if_neg h.not_ge)⟩

/-- Settles O14: the masked nibble lies in the last byte. -/
theorem crcByteOrder : Obligations.CrcByteOrder := fun ws => by
  refine ⟨rfl, fun ⟨i, _⟩ hi => ?_, ?_, congrArg some BitVec.extractLsb'_and⟩
  · change i < 7 at hi
    interval_cases i <;> exact ⟨rfl, rfl⟩
  · have hmask : (ws[7] &&& 0xFFF0#16).extractLsb' 8 8 = ws[7].extractLsb' 8 8 :=
      BitVec.extractLsb'_and.trans BitVec.and_allOnes
    exact congrArg some hmask

/-- Settles O17: a run of the sixteen half-steps on each image. -/
theorem constantImagesValidate : Obligations.ConstantImagesValidate := by
  have hzeros : storedNibble (Vector.replicate 8 0x0000#16) = 0x0#4 := by decide
  have hones : storedNibble (Vector.replicate 8 0xFFFF#16) = 0xF#4 := by decide
  have hrem : crcRemainder (Vector.replicate 8 0xFFFF#16) = 0xF000#16 := by decide +kernel
  have hcrc : crc4 (Vector.replicate 8 0xFFFF#16) = 0xF#4 := by rw [crc4, hrem]; rfl
  exact ⟨⟨hzeros, crc4_zeros, (crcMatches_eq_true_iff _).mpr (crc4_zeros.trans hzeros.symm)⟩,
    hones, hrem, hcrc, (crcMatches_eq_true_iff _).mpr (hcrc.trans hones.symm)⟩

end Sys2Proof.Machine

/-! PROOFS. The rules of 41_conversion_sequencer.md: the timing of the trace (R103, R104; 70_reset_and_hazards.md R216,
R217), and RESET, START, READ and CONVERT (R103 to R107). A command boundary owes the device what PHASE says; each body
adds a run of events that leads from what one boundary owes to what the next one does. CONVERT is read off START and
READ, of which it is made (O25). -/

namespace Sys2Proof.Machine

/-! ### What a command boundary owes -/

/-- What the device is owed at a command boundary in phase `ph`. -/
def boundaryOwed (ph : Phase) : Owed := if ph = .resultReady then .resultRead else .nothing

theorem timedInv_iff {s : State} :
    TimedInv s ↔ owedAfter s.trace (some .nothing) = some (boundaryOwed s.phase) := Iff.rfl

theorem boundaryOwed_of_ne {ph : Phase} (h : ph ≠ .resultReady) : boundaryOwed ph = .nothing := if_neg h

theorem boundaryOwed_cases (ph : Phase) : boundaryOwed ph = .resultRead ∨ boundaryOwed ph = .nothing :=
  ite_eq_or_eq _ _ _

/-! ### Runs of events -/

theorem owedAfter_append (es es' : List Event) (o : Option Owed) :
    owedAfter (es ++ es') o = owedAfter es' (owedAfter es o) := by
  induction es generalizing o with
  | nil => rfl
  | cons e es ih => exact ih _

/-- A refused write leaves what is owed. -/
theorem owedAfter_refusedWrite (dev b : Byte) (e : TErr) (ph : Phase) :
    owedAfter [.write dev b (.err e)] (some (boundaryOwed ph)) = some (boundaryOwed ph) := by
  obtain h | h := boundaryOwed_cases ph <;> rw [h] <;> rfl

/-- An acknowledged reset byte and its delay: a settled conversion is no longer owed its reading (R103). -/
theorem owedAfter_reset (dev : Byte) (ph : Phase) :
    owedAfter [.write dev resetByte .ok, .delay Config.tReset] (some (boundaryOwed ph)) = some .nothing := by
  obtain h | h := boundaryOwed_cases ph <;> rw [h] <;> simp [owedAfter, Owed.after]

/-- An acknowledged conversion byte and its delay (R104). -/
theorem owedAfter_conversion (dev : Byte) {b : Byte} (hb : b ≠ resetByte) (ph : Phase) :
    owedAfter [.write dev b .ok, .delay Config.tConv] (some (boundaryOwed ph)) = some .resultRead := by
  obtain h | h := boundaryOwed_cases ph <;> rw [h] <;> simp [owedAfter, Owed.after, hb]

/-- A read of another register than the ADC's leaves what is owed. -/
theorem boundaryOwed_after_read {reg : Byte} (hreg : reg ≠ adcReg) (dev : Byte) (n : Nat) (a : ReadAnswer)
    (ph : Phase) : (boundaryOwed ph).after (.read dev reg n a) = some (boundaryOwed ph) := by
  obtain h | h := boundaryOwed_cases ph <;> rw [h] <;> cases a <;> simp [Owed.after, hreg]

/-- LOADCAL reads no ADC result (20_memory.md R51). -/
theorem boundaryOwed_after_of_loadcal {e : Event} (he : eventAllowed .loadcal e = true) (ph : Phase) :
    (boundaryOwed ph).after e = some (boundaryOwed ph) := by
  cases e with
  | write | delay => cases he
  | read dev reg n a =>
    have hreg : reg ≠ adcReg := by
      rintro rfl
      simp [eventAllowed, adcReg] at he
    exact boundaryOwed_after_read hreg dev n a ph

theorem owedAfter_of_loadcal {evs : List Event} (hevs : ∀ e ∈ evs, eventAllowed .loadcal e = true) (ph : Phase) :
    owedAfter evs (some (boundaryOwed ph)) = some (boundaryOwed ph) := by
  induction evs with
  | nil => rfl
  | cons e es ih =>
    obtain ⟨he, hes⟩ := List.forall_mem_cons.mp hevs
    rw [owedAfter, Option.bind_some, boundaryOwed_after_of_loadcal he, ih hes]

/-- A conversion byte has the operation 4 or 5, the reset byte 1 (30_encoding.md R65, R66). -/
theorem convByte_ne_resetByte (r : Fin 16) (ch : Channel) : convByte r ch ≠ resetByte := by
  refine ne_resetByte_of_opField ?_
  rw [(fields_convByte (Nat.le_of_lt_succ r.isLt) ch).1]
  cases ch <;> decide

/-! ### A call with a known answer -/

/-- A call whose answer is known: its event is the call's with that answer. -/
theorem afterCall_of_answerAt {call : BusCall} {s : State} {a : BusAnswer} (h : s.answerAt 0 call = a) :
    afterCall call s = { s with
      trace := s.trace ++ [busEvent call a]
      calls := s.calls + 1
      answers := s.answers.tail } := by
  rw [afterCall, h]

theorem afterCall_trace_of_answerAt {call : BusCall} {s : State} {a : BusAnswer} (h : s.answerAt 0 call = a) :
    (afterCall call s).trace = s.trace ++ [busEvent call a] := congrArg State.trace (afterCall_of_answerAt h)

/-! ### Bodies keep the trace well timed -/

/-- A state that continues a well-timed trace by events that lead to what its own phase owes. -/
theorem TimedInv.extend {s t : State} (hs : TimedInv s) {evs : List Event} (htrace : t.trace = s.trace ++ evs)
    (hevs : owedAfter evs (some (boundaryOwed s.phase)) = some (boundaryOwed t.phase)) : TimedInv t := by
  rw [timedInv_iff] at hs ⊢
  rw [htrace, owedAfter_append, hs, hevs]

/-- The body takes a well-timed trace to a well-timed trace. -/
def Body.KeepsTimed (b : Body) : Prop := ∀ s, TimedInv s → TimedInv (b s).1

theorem thenIfOk_keepsTimed {a b : Body} (ha : a.KeepsTimed) (hb : b.KeepsTimed) : (a.thenIfOk b).KeepsTimed := by
  intro s hs
  by_cases hk : (a s).2 = .ok
  · rw [thenIfOk_of_ok (Prod.ext rfl hk)]
    exact hb _ (ha s hs)
  · rw [thenIfOk_of_not_ok b rfl hk]
    exact ha s hs

theorem resetBody_keepsTimed : resetBody.KeepsTimed := by
  intro s hs
  obtain ⟨e, ha, h⟩ | ⟨_, _, _, ha, h⟩ := resetBody_cases s
  · rw [h]
    exact hs.extend (afterCall_trace_of_answerAt ha) (owedAfter_refusedWrite _ _ e _)
  · rw [h]
    refine hs.extend ?_ (owedAfter_reset Config.devAddr _)
    rw [delay_trace, cancelCycle_trace, afterCall_trace_of_answerAt ha, List.append_assoc]
    rfl

theorem startBody_keepsTimed (ch : Channel) : (startBody ch).KeepsTimed := by
  intro s hs
  obtain ⟨e, ha, h⟩ | ⟨_, _, _, ha, h⟩ := startBody_cases ch s
  · rw [h]
    exact hs.extend (afterCall_trace_of_answerAt ha) (owedAfter_refusedWrite _ _ e _)
  · rw [h]
    refine hs.extend ?_ (owedAfter_conversion Config.devAddr (convByte_ne_resetByte Config.res ch) _)
    rw [settle_trace, beginConversion_trace, afterCall_trace_of_answerAt ha, List.append_assoc]
    rfl

theorem readPermitted_iff {ch : Channel} {s : State} :
    readPermitted ch s = true ↔ s.phase = .resultReady ∧ s.ch = ch := by
  simp only [readPermitted, Bool.and_eq_true, beq_iff_eq]

/-- READ leaves RESULT_READY with the reading it was owed (R105). -/
theorem storeSample_phase_ne_resultReady (ch : Channel) (v : Word24) (s : State) :
    (storeSample ch v s).phase ≠ .resultReady := by
  obtain ⟨h, _⟩ | ⟨h, _⟩ := storeSample_phase_cases ch v s <;> rw [h] <;> decide

/-- The reading happens in RESULT_READY alone, where one is owed. -/
theorem readBody_keepsTimed (ch : Channel) : (readBody ch).KeepsTimed := by
  intro s hs
  obtain ⟨_, h⟩ | ⟨hp, e, ha, h⟩ | ⟨hp, _, _, _, ha, h⟩ := readBody_cases ch s
  · rw [h]
    exact hs
  · rw [h]
    refine hs.extend (afterCall_trace_of_answerAt ha) ?_
    rw [afterCall_phase, (readPermitted_iff.mp hp).1]
    rfl
  · rw [h]
    refine hs.extend (afterCall_trace_of_answerAt ha) ?_
    rw [boundaryOwed_of_ne (storeSample_phase_ne_resultReady ch _ _), (readPermitted_iff.mp hp).1]
    rfl

theorem convertBody_keepsTimed (ch : Channel) : (convertBody ch).KeepsTimed :=
  thenIfOk_keepsTimed (startBody_keepsTimed ch) (readBody_keepsTimed ch)

theorem loadcalBody_phase (s : State) : (loadcalBody s).1.phase = s.phase :=
  (loadcalBody_updates (i := .loadcal) (.inl rfl) s).preserves (P := fun v => v.phase = s.phase)
    (fun _ _ huv hu => (congrArg Prod.fst (huv.keeps_sequencer rfl)).trans hu) rfl

theorem loadcalBody_keepsTimed : loadcalBody.KeepsTimed := by
  intro s hs
  obtain ⟨evs, htrace, hevs⟩ := loadcalBody_performs (i := .loadcal) (.inl rfl) s
  refine hs.extend htrace ?_
  rw [loadcalBody_phase, owedAfter_of_loadcal hevs]

theorem initBody_keepsTimed : initBody.KeepsTimed := thenIfOk_keepsTimed resetBody_keepsTimed loadcalBody_keepsTimed

theorem getreadingBody_trace (s : State) : (getreadingBody s).1.trace = s.trace := by
  obtain ⟨_, h⟩ | ⟨_, h⟩ := getreadingBody_cases s
  · rw [h]
  · rw [h]
    rfl

/-- GETREADING neither enters nor leaves RESULT_READY. -/
theorem getreadingBody_keepsTimed : getreadingBody.KeepsTimed := by
  intro s hs
  refine hs.extend (evs := []) ((getreadingBody_trace s).trans (List.append_nil _).symm) ?_
  obtain ⟨_, _, hsame | ⟨hboth, hcomp⟩⟩ := getreadingBody_sequencer s
  · rw [hsame]
    rfl
  · rw [hboth, hcomp]
    rfl

theorem setwaterBody_keepsTimed (m : WaterMode) : (setwaterBody m).KeepsTimed := fun _ hs => hs

/-! ### Commands and steps keep the trace well timed -/

/-- A completion performs no event and leaves PHASE. -/
theorem runCommand_keepsTimed {b : Body} (hb : b.KeepsTimed) {s t : State} (h : runCommand b s = .next t)
    (hs : TimedInv s) : TimedInv t := by
  rw [runCommand_next h]
  exact hb s hs

theorem exec_keepsTimed {i : Instr} (hi : i.isCommand = true) {s t : State} (h : exec i s = .next t)
    (hs : TimedInv s) : TimedInv t := by
  cases i with
  | init => exact runCommand_keepsTimed initBody_keepsTimed h hs
  | reset => exact runCommand_keepsTimed resetBody_keepsTimed h hs
  | loadcal => exact runCommand_keepsTimed loadcalBody_keepsTimed h hs
  | startP => exact runCommand_keepsTimed (startBody_keepsTimed .pressure) h hs
  | startT => exact runCommand_keepsTimed (startBody_keepsTimed .temperature) h hs
  | readP => exact runCommand_keepsTimed (readBody_keepsTimed .pressure) h hs
  | readT => exact runCommand_keepsTimed (readBody_keepsTimed .temperature) h hs
  | convertP => exact runCommand_keepsTimed (convertBody_keepsTimed .pressure) h hs
  | convertT => exact runCommand_keepsTimed (convertBody_keepsTimed .temperature) h hs
  | setwaterFresh => exact runCommand_keepsTimed (setwaterBody_keepsTimed .fresh) h hs
  | setwaterSalt => exact runCommand_keepsTimed (setwaterBody_keepsTimed .salt) h hs
  | getreading => exact runCommand_keepsTimed getreadingBody_keepsTimed h hs
  | devReset | devConvD1 | devConvD2 | devPromRead | devAdcRead => cases hi

/-- With no device-side word standing, what is taken is the script's first word. -/
theorem fetch_cmd_of_busWord_none {s u : State} {e : Encoded} (hb : s.busWord = none) (h : fetch s = some (e, u)) :
    ∃ w ws, e = .cmd w ∧ u = { s with script := ws } := by
  cases hw : s.script with
  | nil =>
    rw [fetch_of_nil hb hw] at h
    cases h
  | cons w ws =>
    rw [fetch_of_script hb hw] at h
    cases h
    exact ⟨w, ws, rfl, rfl⟩

/-! ### RESET (R103) -/

theorem resetBody_of_err {s : State} {e : TErr} (h : s.answerAt 0 resetCall = .err e) :
    resetBody s = (afterCall resetCall s, .transportError e) := by
  simp only [resetBody, h]

theorem resetBody_of_ok {s : State} {b0 b1 b2 : Byte} (h : s.answerAt 0 resetCall = .ok b0 b1 b2) :
    resetBody s = (delay Config.tReset (cancelCycle (afterCall resetCall s)), .ok) := by
  simp only [resetBody, h]

/-! ### START (R104) -/

theorem startBody_of_err {ch : Channel} {s : State} {e : TErr} (h : s.answerAt 0 (startCall ch) = .err e) :
    startBody ch s = (afterCall (startCall ch) s, .transportError e) := by
  simp only [startBody, h]

theorem startBody_of_ok {ch : Channel} {s : State} {b0 b1 b2 : Byte}
    (h : s.answerAt 0 (startCall ch) = .ok b0 b1 b2) :
    startBody ch s = (settle (beginConversion ch (afterCall (startCall ch) s)), .ok) := by
  simp only [startBody, h]

theorem startCall_eq_write_startByte (ch : Channel) : startCall ch = .write Config.devAddr (startByte ch) := by
  rw [startCall, startByte_eq_convByte]

/-- A completed cycle is restarted (10_state.md R30). -/
theorem ite_startsNewCycle_eq_freshAfterStart (ph : Phase) (old : Bool) :
    (if startsNewCycle ph then false else old) = freshAfterStart ph old := by
  cases ph <;> rfl

/-- The state after START has completed OK. -/
def afterStart (ch : Channel) (s : State) : State :=
  { s with
    freshP := freshAfterStart s.phase s.freshP
    freshT := freshAfterStart s.phase s.freshT
    ch := ch
    phase := .resultReady
    result := .ok
    trace := s.trace ++ [.write Config.devAddr (startByte ch) .ok, .delay Config.tConv]
    calls := s.calls + 1
    answers := s.answers.tail }

/-- READ of the channel is permitted there (R105). -/
theorem afterStart_phase_ch (ch : Channel) (s : State) :
    (afterStart ch s).phase = .resultReady ∧ (afterStart ch s).ch = ch := ⟨rfl, rfl⟩

theorem answerAt_afterStart (ch : Channel) (s : State) (k : Nat) (call : BusCall) :
    (afterStart ch s).answerAt k call = s.answerAt (k + 1) call :=
  (answerAt_congr (s := afterCall call s) rfl rfl k call).trans (answerAt_afterCall call call s k)

theorem exec_startInstr_of_err {ch : Channel} {s : State} {e : TErr}
    (h : s.answerAt 0 (.write Config.devAddr (startByte ch)) = .err e) :
    exec ch.startInstr s = .next { s with
      result := .transportError
      terr := e
      trace := s.trace ++ [.write Config.devAddr (startByte ch) (.err e)]
      calls := s.calls + 1
      answers := s.answers.tail } := by
  rw [← startCall_eq_write_startByte] at h
  rw [exec_startInstr, runCommand_eq, startBody_of_err h, afterCall_of_answerAt h, startCall_eq_write_startByte]
  rfl

theorem exec_startInstr_of_ok {ch : Channel} {s : State} {b0 b1 b2 : Byte}
    (h : s.answerAt 0 (.write Config.devAddr (startByte ch)) = .ok b0 b1 b2) :
    exec ch.startInstr s = .next (afterStart ch s) := by
  rw [← startCall_eq_write_startByte] at h
  rw [exec_startInstr, runCommand_eq, startBody_of_ok h, afterCall_of_answerAt h, startCall_eq_write_startByte,
    beginConversion, ite_startsNewCycle_eq_freshAfterStart, ite_startsNewCycle_eq_freshAfterStart]
  simp only [settle, delay, List.append_assoc]
  rfl

/-! ### READ (R105, R107) -/

theorem readBody_of_not_permitted {ch : Channel} {s : State} (hp : ¬(s.phase = .resultReady ∧ s.ch = ch)) :
    readBody ch s = (s, .usageError) := if_neg (readPermitted_iff.not.mpr hp)

theorem readBody_of_err {ch : Channel} {s : State} {e : TErr} (hp : s.phase = .resultReady ∧ s.ch = ch)
    (h : s.answerAt 0 adcCall = .err e) : readBody ch s = (afterCall adcCall s, .transportError e) := by
  simp only [readBody, if_pos (readPermitted_iff.mpr hp), h]

theorem readBody_of_ok {ch : Channel} {s : State} {b0 b1 b2 : Byte} (hp : s.phase = .resultReady ∧ s.ch = ch)
    (h : s.answerAt 0 adcCall = .ok b0 b1 b2) :
    readBody ch s = (storeSample ch (be24 b0 b1 b2) (afterCall adcCall s), .ok) := by
  simp only [readBody, if_pos (readPermitted_iff.mpr hp), h]

theorem be24_eq_sampleOf (b0 b1 b2 : Byte) : be24 b0 b1 b2 = sampleOf b0 b1 b2 := by
  rw [sampleOf, ← toNat_be24, BitVec.ofNat_toNat, BitVec.setWidth_eq]

theorem exec_readInstr_of_not_permitted {ch : Channel} {s : State} (hp : ¬(s.phase = .resultReady ∧ s.ch = ch)) :
    exec ch.readInstr s = .next { s with result := .usageError } := by
  rw [exec_readInstr, runCommand_eq, readBody_of_not_permitted hp]
  rfl

theorem exec_readInstr_of_err {ch : Channel} {s : State} {e : TErr} (hp : s.phase = .resultReady ∧ s.ch = ch)
    (h : s.answerAt 0 (.read Config.devAddr 0x00#8 3) = .err e) :
    exec ch.readInstr s = .next { s with
      result := .transportError
      terr := e
      trace := s.trace ++ [.read Config.devAddr 0x00#8 3 (.err e)]
      calls := s.calls + 1
      answers := s.answers.tail } := by
  rw [exec_readInstr, runCommand_eq, readBody_of_err hp h, afterCall_of_answerAt (call := adcCall) h]
  rfl

/-- The state after READ has completed OK with three bytes. -/
def afterRead (ch : Channel) (b0 b1 b2 : Byte) (s : State) : State :=
  storeSample ch (sampleOf b0 b1 b2) { s with
    result := .ok
    trace := s.trace ++ [.read Config.devAddr 0x00#8 3 (.ok [b0, b1, b2])]
    calls := s.calls + 1
    answers := s.answers.tail }

theorem exec_readInstr_of_ok {ch : Channel} {s : State} {b0 b1 b2 : Byte}
    (hp : s.phase = .resultReady ∧ s.ch = ch)
    (h : s.answerAt 0 (.read Config.devAddr 0x00#8 3) = .ok b0 b1 b2) :
    exec ch.readInstr s = .next (afterRead ch b0 b1 b2 s) := by
  rw [exec_readInstr, runCommand_eq, readBody_of_ok hp h, afterCall_of_answerAt (call := adcCall) h, be24_eq_sampleOf]
  rfl

theorem afterRead_pressure (b0 b1 b2 : Byte) (s : State) : afterRead .pressure b0 b1 b2 s = { s with
    d1 := sampleOf b0 b1 b2
    d1v := true
    freshP := true
    phase := if s.freshT = true then .bothReady else .idle
    result := .ok
    trace := s.trace ++ [.read Config.devAddr 0x00#8 3 (.ok [b0, b1, b2])]
    calls := s.calls + 1
    answers := s.answers.tail } := by
  simp [afterRead, storeSample, phaseAfterRead]

theorem afterRead_temperature (b0 b1 b2 : Byte) (s : State) : afterRead .temperature b0 b1 b2 s = { s with
    d2 := sampleOf b0 b1 b2
    d2v := true
    freshT := true
    phase := if s.freshP = true then .bothReady else .idle
    result := .ok
    trace := s.trace ++ [.read Config.devAddr 0x00#8 3 (.ok [b0, b1, b2])]
    calls := s.calls + 1
    answers := s.answers.tail } := by
  simp [afterRead, storeSample, phaseAfterRead]

/-! ### CONVERT (R106) -/

theorem exec_convertInstr_of_start_err {ch : Channel} {s : State} {e : TErr}
    (h : s.answerAt 0 (.write Config.devAddr (startByte ch)) = .err e) :
    exec ch.convertInstr s = exec ch.startInstr s := by
  have hstart := exec_startInstr_of_err h
  rw [convertIsStartThenRead s _ ch hstart, hstart]
  exact if_neg nofun

theorem exec_convertInstr_of_start_ok {ch : Channel} {s : State} {x0 x1 x2 : Byte}
    (h : s.answerAt 0 (.write Config.devAddr (startByte ch)) = .ok x0 x1 x2) :
    exec ch.convertInstr s = exec ch.readInstr (afterStart ch s) :=
  (convertIsStartThenRead s _ ch (exec_startInstr_of_ok h)).trans (if_pos rfl)

/-- READ gets the answer after START's. -/
theorem exec_convertInstr_of_ok {ch : Channel} {s : State} {x0 x1 x2 b0 b1 b2 : Byte}
    (h : s.answerAt 0 (.write Config.devAddr (startByte ch)) = .ok x0 x1 x2)
    (hread : s.answerAt 1 (.read Config.devAddr 0x00#8 3) = .ok b0 b1 b2) :
    exec ch.convertInstr s = .next (afterRead ch b0 b1 b2 (afterStart ch s)) :=
  (exec_convertInstr_of_start_ok h).trans
    (exec_readInstr_of_ok (afterStart_phase_ch ch s) ((answerAt_afterStart ch s 0 _).trans hread))

/-! ### The settled statements -/

/-- Settles O54: without a device-side word a step runs a command, completes an illegal word, or waits. -/
theorem stepKeepsTraceTimed : Obligations.StepKeepsTraceTimed := fun s t hb hs h => by
  obtain ⟨_, rfl⟩ | ⟨e, u, i, hf, hd, hx⟩ | ⟨_, u, _, hf, _, rfl⟩ := step_cases h
  · exact ⟨hb, hs⟩
  · obtain ⟨w, ws, rfl, rfl⟩ := fetch_cmd_of_busWord_none hb hf
    exact ⟨(exec_keeps_busWord hx).trans hb, exec_keepsTimed (isCommand_of_decodeCmd hd) hx hs⟩
  · obtain ⟨_, ws, _, rfl⟩ := fetch_cmd_of_busWord_none hb hf
    exact ⟨hb, hs⟩

/-- Settles O20, by the two answers to the write. -/
theorem resetEffect : Obligations.ResetEffect := by
  refine ⟨decode_encode (i := .reset) rfl, fun s e h => ?_, fun s b0 b1 b2 h => ?_⟩
  · change runCommand resetBody s = _
    rw [runCommand_eq, resetBody_of_err h, afterCall_of_answerAt (call := resetCall) h]
    rfl
  · change runCommand resetBody s = _
    rw [runCommand_eq, resetBody_of_ok h, afterCall_of_answerAt (call := resetCall) h]
    simp only [cancelCycle, delay, List.append_assoc]
    rfl

/-- Settles O21, by the two answers to the write. -/
theorem startEffect : Obligations.StartEffect :=
  ⟨⟨decode_encode (i := .startP) rfl, decode_encode (i := .startT) rfl⟩, fun _ _ _ h => exec_startInstr_of_err h,
    fun _ _ _ _ _ h => exec_startInstr_of_ok h, fun s ch => beginConversion_phase ch s⟩

/-- Settles O22, by the permission and the two answers to the read. -/
theorem readEffect : Obligations.ReadEffect := by
  refine ⟨⟨decode_encode (i := .readP) rfl, decode_encode (i := .readT) rfl, rfl, rfl⟩,
    fun _ _ _ hph hch h => exec_readInstr_of_err ⟨hph, hch⟩ h, fun s b0 b1 b2 hph hch h => ?_,
    fun s b0 b1 b2 hph hch h => ?_, fun _ _ hp => exec_readInstr_of_not_permitted hp⟩
  · rw [← afterRead_pressure]
    exact exec_readInstr_of_ok ⟨hph, hch⟩ h
  · rw [← afterRead_temperature]
    exact exec_readInstr_of_ok ⟨hph, hch⟩ h

/-- Settles O23: in none of these states READ is permitted. -/
theorem readBeforeStart : Obligations.ReadBeforeStart := by
  refine ⟨fun s ch hph => exec_readInstr_of_not_permitted fun ⟨hready, _⟩ => ?_,
    fun _ _ _ hne => exec_readInstr_of_not_permitted fun ⟨_, hch⟩ => hne hch⟩
  rw [hready] at hph
  simp at hph

/-- Settles O24: START's effect, and READ's on the state that START leaves. -/
theorem convertEffect : Obligations.ConvertEffect := by
  refine ⟨⟨decode_encode (i := .convertP) rfl, decode_encode (i := .convertT) rfl, rfl, rfl⟩,
    fun s ch e h => ?_, fun s ch b0 b1 b2 e h herr => ?_, fun s x0 x1 x2 b0 b1 b2 h hread => ?_,
    fun s x0 x1 x2 b0 b1 b2 h hread => ?_⟩
  · rw [exec_convertInstr_of_start_err h, exec_startInstr_of_err h]
  · rw [exec_convertInstr_of_start_ok h,
      exec_readInstr_of_err (afterStart_phase_ch ch s) ((answerAt_afterStart ch s 0 _).trans herr)]
    simp only [afterStart, List.append_assoc, ← List.drop_one, List.drop_drop]
    rfl
  · refine (exec_convertInstr_of_ok (ch := .pressure) h hread).trans ?_
    rw [afterRead_pressure]
    simp only [afterStart, List.append_assoc, ← List.drop_one, List.drop_drop]
    rfl
  · refine (exec_convertInstr_of_ok (ch := .temperature) h hread).trans ?_
    rw [afterRead_temperature]
    simp only [afterStart, List.append_assoc, ← List.drop_one, List.drop_drop]
    rfl

end Sys2Proof.Machine

/-! PROOFS. The rules of 42_compensation.md: SETWATER and GETREADING (R130, R131, R150), truncating division by a power
of two (R146), and `Compute` (R132 to R145, R148, R149, R151, R152). Each line of `Compute` has its lemmas once: its
value in each branch, its range, and the 64-bit word that holds it; the settled statements put the lines together. -/

namespace Sys2Proof.Machine

/-! ### Truncating division (R146) -/

theorem tdiv_of_nonneg {a : Int} (ha : 0 ≤ a) (b : Int) : tdiv a b = a / b := if_pos ha

theorem tdiv_of_neg {a : Int} (ha : a < 0) (b : Int) : tdiv a b = -((-a) / b) := if_neg ha.not_ge

theorem abs_tdiv {b : Int} (hb : 0 < b) (a : Int) : |tdiv a b| = |a| / b := by
  obtain ha | ha := le_or_gt 0 a
  · rw [tdiv_of_nonneg ha, abs_of_nonneg (Int.ediv_nonneg ha hb.le), abs_of_nonneg ha]
  · rw [tdiv_of_neg ha, abs_neg, abs_of_nonneg (Int.ediv_nonneg (neg_nonneg.mpr ha.le) hb.le), abs_of_neg ha]

theorem tdiv_eq_zero_iff {a b : Int} (hb : 0 < b) : tdiv a b = 0 ↔ |a| < b := by
  rw [← abs_eq_zero, abs_tdiv hb, Int.ediv_eq_iff_of_pos hb, zero_mul, zero_add]
  exact and_iff_right (abs_nonneg a)

theorem tdiv_neg_iff {a b : Int} (hb : 0 < b) : tdiv a b < 0 ↔ a ≤ -b := by
  obtain ha | ha := le_or_gt 0 a
  · have hq : 0 ≤ a / b := Int.ediv_nonneg ha hb.le
    rw [tdiv_of_nonneg ha]
    omega
  · have hq : 1 ≤ (-a) / b ↔ 1 * b ≤ -a := Int.le_ediv_iff_mul_le hb
    rw [tdiv_of_neg ha]
    omega

theorem tdiv_le_tdiv {a a' b : Int} (hb : 0 < b) (h : a ≤ a') : tdiv a b ≤ tdiv a' b := by
  rw [tdiv_eq_tdiv, tdiv_eq_tdiv]
  exact Int.tdiv_le_tdiv hb h

theorem abs_tdiv_lt {a b m : Int} (hb : 0 < b) (h : |a| < m * b) : |tdiv a b| < m := by
  rw [abs_tdiv hb]
  exact Int.ediv_lt_of_lt_mul hb h

theorem shiftRight_eq_ediv (a : Int) (k : Nat) : a >>> k = a / 2 ^ k := by
  rw [Int.shiftRight_eq_div_pow, Nat.cast_pow, Nat.cast_ofNat]

/-- The floor of `-a / m` negated is the ceiling of `a / m`. -/
theorem neg_ediv_neg_eq_ediv_add {m : Int} (hm : 0 < m) (a : Int) : -((-a) / m) = (a + (m - 1)) / m := by
  obtain ⟨hlo, hhi⟩ := (Int.ediv_eq_iff_of_pos (x := -a) hm).mp rfl
  refine ((Int.ediv_eq_iff_of_pos hm).mpr ?_).symm
  rw [neg_mul]
  omega

/-! ### GETREADING (R131, R150) -/

theorem exec_getreading_of_not_permitted {s : State} (h : readingPermitted s = false) :
    exec .getreading s = .next (complete .usageError s) := by
  obtain ⟨_, hbody⟩ | ⟨hyes, _⟩ := getreadingBody_cases s
  · exact (runCommand_eq getreadingBody s).trans (by rw [hbody])
  · exact absurd (hyes.symm.trans h) nofun

/-- `Compute`'s inputs are D1, D2 and `C[1..6]` alone (R150). -/
theorem computeInput_congr {s s' : State} (h1 : s.d1 = s'.d1) (h2 : s.d2 = s'.d2)
    (hc : ∀ k : Fin 8, 1 ≤ k.val → k.val ≤ 6 → s.c[k] = s'.c[k]) : computeInput s = computeInput s' := by
  have hword : ∀ k : Fin 8, 1 ≤ k.val → k.val ≤ 6 → (s.c[k].toNat : Int) = s'.c[k].toNat := fun k hlo hhi => by
    rw [hc k hlo hhi]
  rw [computeInput, computeInput, ComputeInput.mk.injEq, h1, h2]
  exact ⟨rfl, rfl, hword 1 (by decide) (by decide), hword 2 (by decide) (by decide), hword 3 (by decide) (by decide),
    hword 4 (by decide) (by decide), hword 5 (by decide) (by decide), hword 6 (by decide) (by decide)⟩

/-! ### The branches of the second-order correction (R137 to R139, R151) -/

theorem tiOf_of_low {t : Int} (h : t < 2000) (d : Int) : tiOf t d = tdiv (3 * d * d) (2 ^ 33) := if_pos h

theorem tiOf_of_high {t : Int} (h : 2000 ≤ t) (d : Int) : tiOf t d = tdiv (7 * d * d) (2 ^ 37) := if_neg h.not_gt

theorem offiOf_of_veryLow {t : Int} (h : t < -1500) :
    offiOf t = tdiv (3 * (t - 2000) ^ 2) 2 + 7 * (t + 1500) ^ 2 := by
  rw [offiOf, if_pos (by omega), if_pos h]

theorem offiOf_of_low {t : Int} (hlo : -1500 ≤ t) (hhi : t < 2000) : offiOf t = tdiv (3 * (t - 2000) ^ 2) 2 := by
  rw [offiOf, if_pos hhi, if_neg hlo.not_gt, add_zero]

theorem offiOf_of_high {t : Int} (h : 2000 ≤ t) : offiOf t = tdiv ((t - 2000) ^ 2) 16 := if_neg h.not_gt

theorem sensiOf_of_veryLow {t : Int} (h : t < -1500) :
    sensiOf t = tdiv (5 * (t - 2000) ^ 2) 8 + 4 * (t + 1500) ^ 2 := by
  rw [sensiOf, if_pos (by omega), if_pos h]

theorem sensiOf_of_low {t : Int} (hlo : -1500 ≤ t) (hhi : t < 2000) : sensiOf t = tdiv (5 * (t - 2000) ^ 2) 8 := by
  rw [sensiOf, if_pos hhi, if_neg hlo.not_gt, add_zero]

theorem sensiOf_of_high {t : Int} (h : 2000 ≤ t) : sensiOf t = 0 := if_neg h.not_gt

/-- The nested conditions of L7 and L10 as one chain. -/
theorem offiOf_eq (t : Int) : offiOf t =
    if t < -1500 then tdiv (3 * (t - 2000) ^ 2) 2 + 7 * (t + 1500) ^ 2
    else if t < 2000 then tdiv (3 * (t - 2000) ^ 2) 2
    else tdiv ((t - 2000) ^ 2) 16 := by
  split_ifs with hvery hlow
  · exact offiOf_of_veryLow hvery
  · exact offiOf_of_low (not_lt.mp hvery) hlow
  · exact offiOf_of_high (not_lt.mp hlow)

/-- The nested conditions of L8 and L11 as one chain. -/
theorem sensiOf_eq (t : Int) : sensiOf t =
    if t < -1500 then tdiv (5 * (t - 2000) ^ 2) 8 + 4 * (t + 1500) ^ 2
    else if t < 2000 then tdiv (5 * (t - 2000) ^ 2) 8
    else 0 := by
  split_ifs with hvery hlow
  · exact sensiOf_of_veryLow hvery
  · exact sensiOf_of_low (not_lt.mp hvery) hlow
  · exact sensiOf_of_high (not_lt.mp hlow)

theorem tempOf_eq_2000_iff (x : ComputeInput) : tempOf x = 2000 ↔ |dTOf x * x.c6| < 2 ^ 23 := by
  rw [← tdiv_eq_zero_iff (by norm_num), tempOf, add_eq_left]

theorem tempOf_le_1999_iff (x : ComputeInput) : tempOf x ≤ 1999 ↔ dTOf x * x.c6 ≤ -2 ^ 23 := by
  rw [← tdiv_neg_iff (by norm_num), tempOf]
  omega

/-! ### The ranges of the lines of `Compute` (R149)

The bounds under 10_state.md R31 suffice for the registers' widths; these are R149's own. -/

section Ranges
variable {x : ComputeInput} (hx : x.InRange)
include hx

theorem dTOf_range : -16776960 ≤ dTOf x ∧ dTOf x ≤ 16777215 := by
  have ⟨_, hd2, _, _, _, _, hc5, _⟩ := hx
  rw [dTOf]
  omega

theorem mul_dTOf_range {c : Int} (hc : 0 ≤ c ∧ c < 2 ^ 16) :
    65535 * -16776960 ≤ c * dTOf x ∧ c * dTOf x ≤ 65535 * 16777215 := by
  obtain ⟨hlo, hhi⟩ := dTOf_range hx
  constructor <;> nlinarith

theorem abs_mul_dTOf_lt {c : Int} (hc : 0 ≤ c ∧ c < 2 ^ 16) : |c * dTOf x| < 2 ^ 40 := by
  have h := mul_dTOf_range hx hc
  rw [abs_lt]
  omega

/-- A quotient of a product with `dT` is monotone in the product (R149). -/
theorem tdiv_mul_dTOf_range {b c : Int} (hb : 0 < b) (hc : 0 ≤ c ∧ c < 2 ^ 16) :
    tdiv (65535 * -16776960) b ≤ tdiv (c * dTOf x) b ∧ tdiv (c * dTOf x) b ≤ tdiv (65535 * 16777215) b :=
  (mul_dTOf_range hx hc).imp (tdiv_le_tdiv hb) (tdiv_le_tdiv hb)

theorem tempOf_range : -129068 ≤ tempOf x ∧ tempOf x ≤ 133069 := by
  have ⟨_, _, _, _, _, _, _, hc6⟩ := hx
  have hq := tdiv_mul_dTOf_range hx (b := 2 ^ 23) (by norm_num) hc6
  rw [show tdiv (65535 * -16776960) (2 ^ 23) = -131068 by decide,
    show tdiv (65535 * 16777215) (2 ^ 23) = 131069 by decide] at hq
  rw [tempOf, mul_comm (dTOf x)]
  omega

theorem offOf_range : -8589672450 ≤ offOf x ∧ offOf x ≤ 12884704768 := by
  have ⟨_, _, _, hc2, _, hc4, _⟩ := hx
  have hq := tdiv_mul_dTOf_range hx (b := 2 ^ 7) (by norm_num) hc4
  rw [show tdiv (65535 * -16776960) (2 ^ 7) = -8589672450 by decide,
    show tdiv (65535 * 16777215) (2 ^ 7) = 8589803008 by decide] at hq
  rw [offOf]
  omega

theorem sensOf_range : -4294836225 ≤ sensOf x ∧ sensOf x ≤ 6442352384 := by
  have ⟨_, _, hc1, _, hc3, _⟩ := hx
  have hq := tdiv_mul_dTOf_range hx (b := 2 ^ 8) (by norm_num) hc3
  rw [show tdiv (65535 * -16776960) (2 ^ 8) = -4294836225 by decide,
    show tdiv (65535 * 16777215) (2 ^ 8) = 4294901504 by decide] at hq
  rw [sensOf]
  omega

theorem dTOf_mul_self_range : 0 ≤ dTOf x * dTOf x ∧ dTOf x * dTOf x ≤ 2 ^ 48 := by
  obtain ⟨hlo, hhi⟩ := sq_bounds_of_abs_le (abs_dTOf_le hx)
  rw [pow_two] at hlo hhi
  exact ⟨hlo, hhi.trans (by norm_num)⟩

/-- Both squares of L7 to L14, from the exact range of TEMP. -/
theorem tempSquares_range :
    (0 ≤ (tempOf x - 2000) ^ 2 ∧ (tempOf x - 2000) ^ 2 ≤ 131069 ^ 2) ∧
    (0 ≤ (tempOf x + 1500) ^ 2 ∧ (tempOf x + 1500) ^ 2 ≤ 134569 ^ 2) := by
  have ht := tempOf_range hx
  exact ⟨sq_bounds_of_abs_le (abs_le.mpr (by omega)), sq_bounds_of_abs_le (abs_le.mpr (by omega))⟩

theorem tiOf_range : 0 ≤ tiOf (tempOf x) (dTOf x) ∧ tiOf (tempOf x) (dTOf x) ≤ 98304 := by
  have hsq := dTOf_mul_self_range hx
  obtain hlow | hhigh := lt_or_ge (tempOf x) 2000
  · rw [tiOf_of_low hlow, mul_assoc, tdiv_of_nonneg (by omega)]
    omega
  · rw [tiOf_of_high hhigh, mul_assoc, tdiv_of_nonneg (by omega)]
    omega

theorem offiOf_range : 0 ≤ offiOf (tempOf x) ∧ offiOf (tempOf x) < 2 ^ 38 - 12884704768 := by
  obtain ⟨hsq, hsq'⟩ := tempSquares_range hx
  rw [offiOf_eq, tdiv_of_nonneg (by omega), tdiv_of_nonneg (by omega)]
  split_ifs <;> omega

theorem sensiOf_range : 0 ≤ sensiOf (tempOf x) ∧ sensiOf (tempOf x) < 2 ^ 37 - 6442352384 := by
  obtain ⟨hsq, hsq'⟩ := tempSquares_range hx
  rw [sensiOf_eq, tdiv_of_nonneg (by omega)]
  split_ifs <;> omega

theorem abs_off2Of_lt : |off2Of x| < 2 ^ 38 := by
  have hoff := offOf_range hx
  have hoffi := offiOf_range hx
  rw [off2Of, abs_lt]
  omega

theorem abs_sens2Of_lt : |sens2Of x| < 2 ^ 37 := by
  have hsens := sensOf_range hx
  have hsensi := sensiOf_range hx
  rw [sens2Of, abs_lt]
  omega

theorem abs_temp2Of_lt : |temp2Of x| < 2 ^ 18 := by
  have htemp := tempOf_range hx
  have hti := tiOf_range hx
  rw [temp2Of, abs_lt]
  omega

theorem abs_d1_mul_sens2Of_lt : |x.d1 * sens2Of x| < 2 ^ 61 := by
  have ⟨⟨hnonneg, hlt⟩, _⟩ := hx
  calc |x.d1 * sens2Of x|
      = x.d1 * |sens2Of x| := by rw [abs_mul, abs_of_nonneg hnonneg]
    _ < 2 ^ 24 * 2 ^ 37 := mul_lt_mul'' hlt (abs_sens2Of_lt hx) hnonneg (abs_nonneg _)
    _ = 2 ^ 61 := by norm_num

/-- `Y`, the inner quotient of L19. -/
theorem abs_innerQuotient_lt : |tdiv (x.d1 * sens2Of x) (2 ^ 21)| < 2 ^ 40 :=
  abs_tdiv_lt (by norm_num) ((abs_d1_mul_sens2Of_lt hx).trans_eq (by norm_num))

/-- `Y - OFF2`, the outer numerator of L19. -/
theorem abs_outerNumerator_lt : |tdiv (x.d1 * sens2Of x) (2 ^ 21) - off2Of x| < 2 ^ 41 := by
  have hy := abs_innerQuotient_lt hx
  have hoff := abs_off2Of_lt hx
  rw [abs_lt] at hy hoff ⊢
  omega

theorem abs_pOf_lt : |pOf x| < 2 ^ 26 :=
  abs_tdiv_lt (by norm_num) ((abs_outerNumerator_lt hx).trans_eq (by norm_num))

theorem abs_depthNumerator_lt : |10 * pOf x - 101325| < 2 ^ 30 := by
  have hp := abs_pOf_lt hx
  rw [abs_lt] at hp ⊢
  omega

theorem abs_depthOf_lt (w : WaterMode) : |depthOf (pOf x) w| < 2 ^ 50 := by
  have h := abs_depthNumerator_lt hx
  rw [abs_lt] at h ⊢
  cases w with
  | fresh =>
    rw [depthOf, knum]
    omega
  | salt =>
    rw [depthOf, knum]
    omega

end Ranges

/-! ### The depth (R144, R145, R152) -/

/-- No pressure in tenths of a millibar is 1013.25 mbar (R152). -/
theorem depthOf_ne_zero (p : Int) (w : WaterMode) : depthOf p w ≠ 0 := by
  have hnum : 10 * p - 101325 ≠ 0 := by omega
  have hk : knum w ≠ 0 := by cases w <;> decide
  exact mul_ne_zero hnum hk

/-- R145: the integer depth is R144's rational, in units of `10^-10` metre. -/
theorem depthOf_div_eq_depthMetres (p : Int) (w : WaterMode) :
    (depthOf p w : ℚ) / 10 ^ 10 = depthMetres ((p : ℚ) / 10) w := by
  have hk : (knum w : ℚ) = kFactor w * 10 ^ 6 := by cases w <;> norm_num [knum, kFactor]
  rw [depthOf, depthMetres]
  push_cast
  rw [hk]
  ring

theorem depthMetres_fresh (mbar : ℚ) : depthMetres mbar .fresh = (mbar - 1013.25) * 1.019716 / 100 := by
  norm_num [depthMetres, kFactor]

theorem depthMetres_salt (mbar : ℚ) : depthMetres mbar .salt = (mbar - 1013.25) * 0.9945 / 100 := by
  norm_num [depthMetres, kFactor]

/-! ### 64-bit words (R148)

`k64` carries sums, differences and products always, and quotients and comparisons of integers that fit 64 bits. So
each line of `compute64` is the word of the integer line. -/

theorem k64_add (a b : Int) : k64 a + k64 b = k64 (a + b) := (BitVec.ofInt_add a b).symm

theorem k64_mul (a b : Int) : k64 a * k64 b = k64 (a * b) := (BitVec.ofInt_mul a b).symm

theorem k64_sub (a b : Int) : k64 a - k64 b = k64 (a - b) := by
  rw [BitVec.sub_eq_add_neg, k64, k64, k64, ← BitVec.ofInt_neg, ← BitVec.ofInt_add, sub_eq_add_neg]

/-- The integer fits a signed 64-bit word. -/
def Fits64 (a : Int) : Prop := |a| < 2 ^ 63

theorem Fits64.of_abs_lt {a m : Int} (h : |a| < m) (hm : m ≤ 2 ^ 63 := by norm_num) : Fits64 a := h.trans_le hm

theorem toInt_k64 {a : Int} (h : Fits64 a) : (k64 a).toInt = a :=
  toInt_ofInt_of_abs_lt (by norm_num) (Int.le_sub_one_of_lt h) (by norm_num)

theorem k64_sdiv {a b : Int} (ha : Fits64 a) (hb : Fits64 b) : (k64 a).sdiv (k64 b) = k64 (tdiv a b) := by
  refine BitVec.eq_of_toInt_eq ?_
  rw [BitVec.toInt_sdiv, toInt_k64 ha, toInt_k64 hb, ← tdiv_eq_tdiv, k64, BitVec.toInt_ofInt]

theorem k64_slt {a b : Int} (ha : Fits64 a) (hb : Fits64 b) : (k64 a).slt (k64 b) = decide (a < b) := by
  rw [BitVec.slt_eq_decide, toInt_k64 ha, toInt_k64 hb]

/-- The divisors of the block fit. -/
theorem fits64_two_pow {k : Nat} (hk : k < 63) : Fits64 (2 ^ k) := by
  rw [Fits64, abs_of_pos (by positivity)]
  exact pow_lt_pow_right₀ (by norm_num) hk

theorem k64_dTOf (x : ComputeInput) : k64 x.d2 - k64 x.c5 * k64 (2 ^ 8) = k64 (dTOf x) := by
  rw [k64_mul, k64_sub, dTOf]

section Words
variable {x : ComputeInput} (hx : x.InRange)
include hx

section First
variable {dT : Word64} (hdT : dT = k64 (dTOf x))
include hdT

theorem k64_tempOf : k64 2000 + (dT * k64 x.c6).sdiv (k64 (2 ^ 23)) = k64 (tempOf x) := by
  have ⟨_, _, _, _, _, _, _, hc6⟩ := hx
  have hnum : Fits64 (dTOf x * x.c6) := .of_abs_lt (mul_comm x.c6 _ ▸ abs_mul_dTOf_lt hx hc6)
  rw [hdT, k64_mul, k64_sdiv hnum (fits64_two_pow (by norm_num)), k64_add, tempOf]

theorem k64_offOf : k64 x.c2 * k64 (2 ^ 16) + (k64 x.c4 * dT).sdiv (k64 (2 ^ 7)) = k64 (offOf x) := by
  have ⟨_, _, _, _, _, hc4, _⟩ := hx
  have hnum : Fits64 (x.c4 * dTOf x) := .of_abs_lt (abs_mul_dTOf_lt hx hc4)
  rw [hdT, k64_mul, k64_mul, k64_sdiv hnum (fits64_two_pow (by norm_num)), k64_add, offOf]

theorem k64_sensOf : k64 x.c1 * k64 (2 ^ 15) + (k64 x.c3 * dT).sdiv (k64 (2 ^ 8)) = k64 (sensOf x) := by
  have ⟨_, _, _, _, hc3, _⟩ := hx
  have hnum : Fits64 (x.c3 * dTOf x) := .of_abs_lt (abs_mul_dTOf_lt hx hc3)
  rw [hdT, k64_mul, k64_mul, k64_sdiv hnum (fits64_two_pow (by norm_num)), k64_add, sensOf]

/-- A multiple of `dT`'s square in 64 bits, divided by a power of two. -/
theorem k64_mul_dTOf_sq_sdiv {c : Int} (hc : 0 ≤ c ∧ c ≤ 7) {k : Nat} (hk : k < 63) :
    (k64 c * dT * dT).sdiv (k64 (2 ^ k)) = k64 (tdiv (c * dTOf x * dTOf x) (2 ^ k)) := by
  obtain ⟨hlo, hhi⟩ := dTOf_mul_self_range hx
  have hnum : Fits64 (c * dTOf x * dTOf x) := by
    rw [Fits64, mul_assoc, abs_of_nonneg (mul_nonneg hc.1 hlo)]
    nlinarith
  rw [hdT, k64_mul, k64_mul, k64_sdiv hnum (fits64_two_pow hk)]

end First

section Second
variable {temp : Word64} (htemp : temp = k64 (tempOf x))
include htemp

theorem k64_tempOf_slt {b : Int} (hb : Fits64 b) : temp.slt (k64 b) = decide (tempOf x < b) := by
  have hfits : Fits64 (tempOf x) := .of_abs_lt (Int.lt_add_one_of_le (abs_tempOf_le hx))
  rw [htemp, k64_slt hfits hb]

/-- A multiple of the square of `TEMP - 2000` in 64 bits. -/
theorem k64_mul_below_sq_sdiv {c b : Int} (hc : 0 ≤ c ∧ c ≤ 5) (hb : Fits64 b) :
    (k64 c * ((temp - k64 2000) * (temp - k64 2000))).sdiv (k64 b) = k64 (tdiv (c * (tempOf x - 2000) ^ 2) b) := by
  obtain ⟨⟨hlo, hhi⟩, _⟩ := tempSquares_range hx
  have hnum : Fits64 (c * (tempOf x - 2000) ^ 2) := by
    rw [Fits64, abs_of_nonneg (mul_nonneg hc.1 hlo)]
    nlinarith
  rw [htemp, k64_sub, k64_mul, ← pow_two, k64_mul, k64_sdiv hnum hb]

theorem k64_below_sq_sdiv {b : Int} (hb : Fits64 b) :
    ((temp - k64 2000) * (temp - k64 2000)).sdiv (k64 b) = k64 (tdiv ((tempOf x - 2000) ^ 2) b) := by
  have hone := k64_mul_below_sq_sdiv hx htemp (c := 1) (by norm_num) hb
  rwa [one_mul, show k64 1 = 1#64 from rfl, BitVec.one_mul] at hone

/-- The addition of L9 to L11 in 64 bits. -/
theorem k64_veryLow_addition (c : Int) :
    (if temp.slt (k64 (-1500)) then k64 c * ((temp + k64 1500) * (temp + k64 1500)) else k64 0) =
      k64 (if tempOf x < -1500 then c * (tempOf x + 1500) ^ 2 else 0) := by
  rw [k64_tempOf_slt hx htemp (by norm_num [Fits64]), htemp, k64_add, k64_mul, ← pow_two, k64_mul, apply_ite k64]
  simp only [decide_eq_true_eq]

theorem k64_tiOf {dT : Word64} (hdT : dT = k64 (dTOf x)) :
    (if temp.slt (k64 2000) then (k64 3 * dT * dT).sdiv (k64 (2 ^ 33))
      else (k64 7 * dT * dT).sdiv (k64 (2 ^ 37))) = k64 (tiOf (tempOf x) (dTOf x)) := by
  rw [k64_tempOf_slt hx htemp (by norm_num [Fits64]), k64_mul_dTOf_sq_sdiv hx hdT (by norm_num) (by norm_num),
    k64_mul_dTOf_sq_sdiv hx hdT (by norm_num) (by norm_num), tiOf, apply_ite k64]
  simp only [decide_eq_true_eq]

theorem k64_offiOf :
    (if temp.slt (k64 2000) then
      (k64 3 * ((temp - k64 2000) * (temp - k64 2000))).sdiv (k64 2) +
        (if temp.slt (k64 (-1500)) then k64 7 * ((temp + k64 1500) * (temp + k64 1500)) else k64 0)
      else ((temp - k64 2000) * (temp - k64 2000)).sdiv (k64 16)) = k64 (offiOf (tempOf x)) := by
  rw [k64_veryLow_addition hx htemp, k64_mul_below_sq_sdiv hx htemp (by norm_num) (by norm_num [Fits64]),
    k64_below_sq_sdiv hx htemp (by norm_num [Fits64]), k64_tempOf_slt hx htemp (by norm_num [Fits64]), k64_add, offiOf,
    apply_ite k64]
  simp only [decide_eq_true_eq]

theorem k64_sensiOf :
    (if temp.slt (k64 2000) then
      (k64 5 * ((temp - k64 2000) * (temp - k64 2000))).sdiv (k64 8) +
        (if temp.slt (k64 (-1500)) then k64 4 * ((temp + k64 1500) * (temp + k64 1500)) else k64 0)
      else k64 0) = k64 (sensiOf (tempOf x)) := by
  rw [k64_veryLow_addition hx htemp, k64_mul_below_sq_sdiv hx htemp (by norm_num) (by norm_num [Fits64]),
    k64_tempOf_slt hx htemp (by norm_num [Fits64]), k64_add, sensiOf, apply_ite k64]
  simp only [decide_eq_true_eq]

end Second

theorem k64_pOf {sens2 off2 : Word64} (hsens2 : sens2 = k64 (sens2Of x)) (hoff2 : off2 = k64 (off2Of x)) :
    ((k64 x.d1 * sens2).sdiv (k64 (2 ^ 21)) - off2).sdiv (k64 (2 ^ 15)) = k64 (pOf x) := by
  rw [hsens2, hoff2, k64_mul, k64_sdiv (.of_abs_lt (abs_d1_mul_sens2Of_lt hx)) (fits64_two_pow (by norm_num)), k64_sub,
    k64_sdiv (.of_abs_lt (abs_outerNumerator_lt hx)) (fits64_two_pow (by norm_num)), pOf]

/-- Every line of the 64-bit block is the word of the integer line, so its results are the words of the integers. -/
theorem compute64_eq (w : WaterMode) :
    compute64 x w = (k64 (temp2Of x), k64 (pOf x), k64 (depthOf (pOf x) w)) := by
  unfold compute64
  extract_lets dT temp off sens below deep low veryLow ti offi sensi off2 sens2 p
  have hdT : dT = k64 (dTOf x) := k64_dTOf x
  have htemp : temp = k64 (tempOf x) := k64_tempOf hx hdT
  have hti : ti = k64 (tiOf (tempOf x) (dTOf x)) := k64_tiOf hx htemp hdT
  have hoff2 : off2 = k64 (off2Of x) :=
    (congrArg₂ (· - ·) (k64_offOf hx hdT) (k64_offiOf hx htemp)).trans (k64_sub _ _)
  have hsens2 : sens2 = k64 (sens2Of x) :=
    (congrArg₂ (· - ·) (k64_sensOf hx hdT) (k64_sensiOf hx htemp)).trans (k64_sub _ _)
  have hp : p = k64 (pOf x) := k64_pOf hx hsens2 hoff2
  rw [htemp, hti, hp, k64_sub, k64_mul, k64_sub, k64_mul, temp2Of, depthOf]

end Words

/-! ### The settled statements -/

/-- Settles O11: floor and ceiling of the quotient, as shifts. -/
theorem divisionByShifting : Obligations.DivisionByShifting := fun a k => by
  rw [shiftRight_eq_ediv, shiftRight_eq_ediv, shiftRight_eq_ediv]
  refine ⟨fun ha => tdiv_of_nonneg ha _, fun ha => ⟨tdiv_of_neg ha _, ?_⟩⟩
  rw [tdiv_of_neg ha, neg_ediv_neg_eq_ediv_add (by positivity)]

/-- Settles O30: the lines one by one, with the branches of L7 to L15 as one chain. -/
theorem computeIsTheBlock : Obligations.ComputeIsTheBlock := fun x w => by
  simp only [compute, temp2Of, pOf, off2Of, sens2Of, offiOf_eq, sensiOf_eq, tiOf, depthOf, tempOf, offOf, sensOf, dTOf,
    tdiv_eq_tdiv]
  cases w <;> rfl

/-- Settles O31: each row of R151's table is a branch lemma; TEMP meets 2000 where the quotient of L2 is zero, and goes
below it where that quotient is negative. -/
theorem branchBoundaries : Obligations.BranchBoundaries := by
  refine ⟨fun t d h => ⟨tiOf_of_high h d, offiOf_of_high h, sensiOf_of_high h⟩, by decide,
    fun t d hlo hhi => ?_, by decide,
    fun t d h => ⟨tiOf_of_low (by omega) d, offiOf_of_veryLow h, sensiOf_of_veryLow h⟩,
    tempOf_eq_2000_iff, tempOf_le_1999_iff, fun x hc6 => ?_⟩
  · have hlow : t < 2000 := by omega
    exact ⟨tiOf_of_low hlow d, offiOf_of_low hlo hlow, sensiOf_of_low hlo hlow⟩
  · rw [tempOf_le_1999_iff, hc6]
    omega

/-- Settles O32: the ranges of the lines, some of which are tighter than the power of two stated. -/
theorem computeBounds : Obligations.ComputeBounds := fun x hx => by
  have ⟨_, _, _, _, hc3, hc4, _, hc6⟩ := hx
  have hdd := dTOf_mul_self_range hx
  obtain ⟨hsq, hsq'⟩ := tempSquares_range hx
  have hti := tiOf_range hx
  have hoffi := offiOf_range hx
  have hsensi := sensiOf_range hx
  refine ⟨dTOf_range hx, tempOf_range hx,
    ⟨mul_comm x.c6 _ ▸ abs_mul_dTOf_lt hx hc6, abs_mul_dTOf_lt hx hc4, abs_mul_dTOf_lt hx hc3⟩,
    ?_, ⟨by omega, by omega⟩, offOf_range hx, sensOf_range hx, ⟨hti.1, by omega⟩, ⟨hoffi.1, by omega⟩,
    ⟨hsensi.1, by omega⟩, abs_off2Of_lt hx, abs_sens2Of_lt hx, abs_temp2Of_lt hx, abs_d1_mul_sens2Of_lt hx,
    abs_innerQuotient_lt hx, abs_outerNumerator_lt hx, abs_pOf_lt hx, abs_depthNumerator_lt hx, abs_depthOf_lt hx⟩
  rw [mul_assoc, mul_assoc]
  omega

/-- Settles O34: the words of the 64-bit block, and results that fit them. -/
theorem sixtyFourBitsSuffice : Obligations.SixtyFourBitsSuffice := fun x w hx => by
  rw [compute64_eq hx]
  exact ⟨toInt_k64 (.of_abs_lt (abs_temp2Of_lt hx)), toInt_k64 (.of_abs_lt (abs_pOf_lt hx)),
    toInt_k64 (.of_abs_lt (abs_depthOf_lt hx w))⟩

/-- Settles O35: the registers hold the exact integers (O33), and the depth is R145's. -/
theorem depthIsTheExactRational : Obligations.DepthIsTheExactRational := fun s hcal h1 h2 => by
  obtain ⟨t, ht, htemp, hp, hdepth⟩ := outputRegistersAreExact s hcal h1 h2
  have hperm := exec_getreading_of_permitted (readingPermitted_iff.mpr ⟨hcal, h1, h2⟩)
  have hwater : t.water = s.water := by
    rw [Host.Outcome.next.inj (ht.symm.trans hperm)]
    rfl
  refine ⟨t, ht, by rw [temperatureC, htemp], by rw [pressureMbar, hp], ?_, fun h => ?_, fun h => ?_⟩
  · rw [hdepth, hwater, pressureMbar, hp]
    exact depthOf_div_eq_depthMetres _ _
  · rw [h]
    exact depthMetres_fresh _
  · rw [h]
    exact depthMetres_salt _

/-- Settles O37: what a permitted GETREADING stores is `compute` of the inputs. -/
theorem readingDependsOnItsInputsOnly : Obligations.ReadingDependsOnItsInputsOnly :=
  fun s s' hcal h1 h2 hcal' h1' h2' hd1 hd2 hwater hc => by
    refine ⟨_, _, exec_getreading_of_permitted (readingPermitted_iff.mpr ⟨hcal, h1, h2⟩),
      exec_getreading_of_permitted (readingPermitted_iff.mpr ⟨hcal', h1', h2'⟩), ?_⟩
    rw [computeInput_congr hd1 hd2 hc, hwater]
    exact ⟨rfl, rfl, rfl⟩

/-- Settles O28: the words are the encodings, and the body is one register write. -/
theorem setwaterEffect : Obligations.SetwaterEffect :=
  ⟨⟨decode_encode (i := .setwaterFresh) rfl, decode_encode (i := .setwaterSalt) rfl⟩,
    fun _ m => by cases m <;> rfl⟩

/-- Settles O29: the two outcomes of the permission check. -/
theorem getreadingEffect : Obligations.GetreadingEffect :=
  ⟨decode_encode (i := .getreading) rfl,
    fun _ hcal h1 h2 => exec_getreading_of_permitted (readingPermitted_iff.mpr ⟨hcal, h1, h2⟩),
    fun _ h => exec_getreading_of_not_permitted (Bool.eq_false_iff.mpr (mt readingPermitted_iff.mp h))⟩

/-- Settles O36: both depths are the same numerator times the constant of their water. -/
theorem waterTypeRatio : Obligations.WaterTypeRatio := fun p => by
  refine ⟨?_, depthOf_ne_zero p .fresh, depthOf_ne_zero p .salt⟩
  rw [depthOf, depthOf, knum, knum]
  ring

end Sys2Proof.Machine

/-! PROOFS. The rule of 43_initialize.md: INIT (R170). INIT is LOADCAL run on the state that RESET leaves, so its result
is that of LOADCAL with the answers moved by one; the settled statement puts RESET's effect and LOADCAL's together. -/

namespace Sys2Proof.Machine

/-! ### The state RESET leaves (R103) -/

/-- The state after RESET has completed OK. -/
def afterReset (s : State) : State :=
  { s with
    phase := .idle
    freshP := false
    freshT := false
    result := .ok
    trace := s.trace ++ [.write Config.devAddr 0x1E#8 .ok, .delay 10000]
    calls := s.calls + 1
    answers := s.answers.tail }

theorem exec_reset_of_ok {s : State} {b0 b1 b2 : Byte}
    (h : s.answerAt 0 (.write Config.devAddr 0x1E#8) = .ok b0 b1 b2) : exec .reset s = .next (afterReset s) :=
  have ⟨_, _, hok⟩ := resetEffect
  hok s b0 b1 b2 h

/-- RESET uses up one answer. -/
theorem answerAt_afterReset (s : State) (k : Nat) (call : BusCall) :
    (afterReset s).answerAt k call = s.answerAt (1 + k) call := by
  rw [Nat.add_comm, ← answerAt_afterCall call call s k]
  exact answerAt_congr rfl rfl k call

theorem promAnswered_afterReset {s : State} {n : Nat} {bytes : Nat → Byte × Byte × Byte}
    (h : PromAnswered s 1 n bytes) : PromAnswered (afterReset s) 0 n bytes := fun k hk => by
  rw [Nat.zero_add, answerAt_afterReset]
  exact h k hk

/-! ### INIT by the answer to its write (R170) -/

theorem exec_init_of_reset_err {s : State} {e : TErr}
    (h : s.answerAt 0 (.write Config.devAddr 0x1E#8) = .err e) : exec .init s = exec .reset s := by
  obtain ⟨_, herr, _⟩ := resetEffect
  have hreset := herr s e h
  rw [initIsResetThenLoadcal s _ hreset, hreset]
  exact if_neg nofun

theorem exec_init_of_reset_ok {s : State} {b0 b1 b2 : Byte}
    (h : s.answerAt 0 (.write Config.devAddr 0x1E#8) = .ok b0 b1 b2) :
    exec .init s = exec .loadcal (afterReset s) :=
  (initIsResetThenLoadcal s _ (exec_reset_of_ok h)).trans (if_pos rfl)

/-! ### The settled statement -/

/-- Settles O26: RESET's effect, and LOADCAL's on the state that RESET leaves. -/
theorem initEffect : Obligations.InitEffect := by
  refine ⟨decode_encode (i := .init) rfl, fun s e h => ?_, fun s b0 b1 b2 j bytes e h hj hwords herr => ?_,
    fun s b0 b1 b2 bytes h hwords => ?_⟩
  · obtain ⟨_, hreset, _⟩ := resetEffect
    rw [exec_init_of_reset_err h, hreset s e h]
  · rw [exec_init_of_reset_ok h, loadcalReadFails (afterReset s) j bytes e hj (promAnswered_afterReset hwords)
      ((answerAt_afterReset s j _).trans herr)]
    simp only [afterReset, Nat.add_assoc, Nat.add_comm 1, ← List.drop_one, List.drop_drop]
  · rw [exec_init_of_reset_ok h, loadcalLoadsAndJudges (afterReset s) bytes (promAnswered_afterReset hwords)]
    simp only [afterReset, Nat.add_assoc, ← List.drop_one, List.drop_drop]

end Sys2Proof.Machine

/-! PROOFS. The rules of 60_exceptions.md: a TransportError ends its command (R182, R189), and the completion codes of
each command (R187). How a body can end comes first, then the codes each body can have, then the states in which the
codes occur. -/

namespace Sys2Proof.Machine

/-! ### Answered calls (R182) -/

/-- The event is no call that was answered with an error. -/
def Event.NoError (e : Event) : Prop :=
  (∀ dev b x, e ≠ .write dev b (.err x)) ∧ (∀ dev reg n x, e ≠ .read dev reg n (.err x))

theorem noError_delay (us : Nat) : (Event.delay us).NoError := ⟨nofun, nofun⟩

theorem noError_busEvent_ok (call : BusCall) (b0 b1 b2 : Byte) : (busEvent call (.ok b0 b1 b2)).NoError := by
  cases call <;> exact ⟨nofun, nofun⟩

/-- A refused call records its error. -/
theorem busEvent_err (call : BusCall) (e : TErr) :
    (∃ dev b, busEvent call (.err e) = .write dev b (.err e)) ∨
    (∃ dev reg n, busEvent call (.err e) = .read dev reg n (.err e)) := by
  cases call with
  | write dev b => exact .inl ⟨dev, b, rfl⟩
  | read dev reg n => exact .inr ⟨dev, reg, n, rfl⟩

/-- From `s` to `t` the trace grew at its end, and every call made was answered `ok`. -/
def Answered (s t : State) : Prop := ∃ evs, t.trace = s.trace ++ evs ∧ ∀ e ∈ evs, e.NoError

section Answered
variable {s t u : State}

theorem Answered.of_trace_eq (h : t.trace = s.trace) : Answered s t := ⟨[], by rw [h, List.append_nil], nofun⟩

theorem Answered.of_event {e : Event} (he : e.NoError) (h : t.trace = s.trace ++ [e]) : Answered s t :=
  ⟨[e], h, fun _ he' => List.mem_singleton.mp he' ▸ he⟩

theorem Answered.trans (hst : Answered s t) (htu : Answered t u) : Answered s u := by
  obtain ⟨evs, ht, hevs⟩ := hst
  obtain ⟨evs', hu, hevs'⟩ := htu
  exact ⟨evs ++ evs', by rw [hu, ht, List.append_assoc], List.forall_mem_append.mpr ⟨hevs, hevs'⟩⟩

theorem answered_afterCall {call : BusCall} {b0 b1 b2 : Byte} (h : s.answerAt 0 call = .ok b0 b1 b2) :
    Answered s (afterCall call s) :=
  .of_event (noError_busEvent_ok call b0 b1 b2) (afterCall_trace_of_answerAt h)

end Answered

/-! ### How a body can end -/

/-- A body that has run from `s` made answered calls only, and would not complete TransportError; or its last act was
the first call that was answered with an error, and it would complete with that error. -/
inductive Ends (s : State) : State × Completion → Prop
  | answered {t : State} {k : Completion} (hst : Answered s t) (hk : k.resultCode ≠ .transportError) : Ends s (t, k)
  | failed {u : State} {call : BusCall} {e : TErr} (hsu : Answered s u) (he : u.answerAt 0 call = .err e) :
      Ends s (afterCall call u, .transportError e)

theorem Ends.after_answered {s t : State} {r : State × Completion} (hst : Answered s t) (h : Ends t r) : Ends s r := by
  cases h with
  | answered htu hk => exact .answered (hst.trans htu) hk
  | failed htu he => exact .failed (hst.trans htu) he

theorem Ends.failed_first {s : State} {call : BusCall} {e : TErr} (he : s.answerAt 0 call = .err e) :
    Ends s (afterCall call s, .transportError e) := .failed (.of_trace_eq rfl) he

/-- With OK every call was answered. -/
theorem Ends.answered_of_ok {s : State} {r : State × Completion} (h : Ends s r) (hok : r.2 = .ok) :
    Answered s r.1 := by
  cases h with
  | answered hst _ => exact hst
  | failed => cases hok

theorem thenIfOk_ends {a b : Body} (ha : ∀ s, Ends s (a s)) (hb : ∀ s, Ends s (b s)) (s : State) :
    Ends s (a.thenIfOk b s) := by
  by_cases hk : (a s).2 = .ok
  · rw [thenIfOk_of_ok (Prod.ext rfl hk)]
    exact (hb _).after_answered ((ha s).answered_of_ok hk)
  · rw [thenIfOk_of_not_ok b rfl hk]
    exact ha s

theorem resetBody_ends (s : State) : Ends s (resetBody s) := by
  obtain ⟨_, he, h⟩ | ⟨_, _, _, ha, h⟩ := resetBody_cases s
  · rw [h]
    exact .failed_first he
  · rw [h]
    exact .answered ((answered_afterCall ha).trans (.of_event (noError_delay _) rfl)) nofun

theorem startBody_ends (ch : Channel) (s : State) : Ends s (startBody ch s) := by
  obtain ⟨_, he, h⟩ | ⟨_, _, _, ha, h⟩ := startBody_cases ch s
  · rw [h]
    exact .failed_first he
  · rw [h]
    exact .answered ((answered_afterCall ha).trans (.of_event (noError_delay _) rfl)) nofun

theorem readBody_ends (ch : Channel) (s : State) : Ends s (readBody ch s) := by
  obtain ⟨_, h⟩ | ⟨_, _, he, h⟩ | ⟨_, _, _, _, ha, h⟩ := readBody_cases ch s
  · rw [h]
    exact .answered (.of_trace_eq rfl) nofun
  · rw [h]
    exact .failed_first he
  · rw [h]
    exact .answered ((answered_afterCall ha).trans (.of_trace_eq rfl)) nofun

/-- Loading as a body of its own, that would complete OK or with the failing read's error. -/
theorem loadWords_ends (n : Nat) :
    ∀ k s, Ends s ((loadWords n k s).1, (loadWords n k s).2.elim .ok .transportError) := by
  induction n with
  | zero => exact fun _ _ => .answered (.of_trace_eq rfl) nofun
  | succ n ih =>
    intro k s
    cases ha : s.answerAt 0 (promCall k) with
    | err e =>
      rw [loadWords_succ_err ha]
      exact .failed_first ha
    | ok hi lo x =>
      rw [loadWords_succ_ok ha]
      have hstored : Answered s (setC k (be16 hi lo) (afterCall (promCall k) s)) :=
        (answered_afterCall ha).trans (.of_trace_eq rfl)
      exact (ih _ _).after_answered hstored

theorem loadcalBody_ends (s : State) : Ends s (loadcalBody s) := by
  have hinvalid : Answered s (invalidateCal s) := .of_trace_eq rfl
  have hload := (loadWords_ends 8 0 (invalidateCal s)).after_answered hinvalid
  obtain ⟨_, _, hw, h⟩ | ⟨t, hw, h⟩ := loadcalBody_cases s
  · rw [hw] at hload
    rw [h]
    exact hload
  · rw [hw] at hload
    rw [h]
    refine .answered ((hload.answered_of_ok rfl).trans (.of_trace_eq rfl)) ?_
    cases crcMatches t.c <;> exact nofun

theorem convertBody_ends (ch : Channel) : ∀ s, Ends s (convertBody ch s) :=
  thenIfOk_ends (startBody_ends ch) (readBody_ends ch)

theorem initBody_ends : ∀ s, Ends s (initBody s) := thenIfOk_ends resetBody_ends loadcalBody_ends

theorem getreadingBody_ends (s : State) : Ends s (getreadingBody s) := by
  obtain ⟨_, h⟩ | ⟨_, h⟩ := getreadingBody_cases s
  · rw [h]
    exact .answered (.of_trace_eq rfl) nofun
  · rw [h]
    exact .answered (.of_trace_eq rfl) nofun

theorem setwaterBody_ends (m : WaterMode) (s : State) : Ends s (setwaterBody m s) :=
  .answered (.of_trace_eq rfl) nofun

/-! ### A TransportError's event -/

/-- The events from `s` to `t` end with a call whose error is `t`'s TERR, the first error among them (R182). -/
def FailsLast (s t : State) : Prop :=
  ∃ (before : List Event) (last : Event),
    t.trace = s.trace ++ before ++ [last] ∧
    ((∃ dev b, last = .write dev b (.err t.terr)) ∨ (∃ dev reg n, last = .read dev reg n (.err t.terr))) ∧
    ∀ e ∈ before, e.NoError

/-- A completion writes the failing call's error to TERR (R190). -/
theorem Ends.failsLast {s : State} {r : State × Completion} (h : Ends s r)
    (hres : (complete r.2 r.1).result = .transportError) : FailsLast s (complete r.2 r.1) := by
  cases h with
  | answered _ hk => exact absurd hres hk
  | @failed u call e hsu he =>
    obtain ⟨before, htrace, hbefore⟩ := hsu
    refine ⟨before, busEvent call (.err e), ?_, busEvent_err call e, hbefore⟩
    rw [complete_trace, afterCall_trace_of_answerAt he, htrace]

theorem runCommand_failsLast {b : Body} (hb : ∀ s, Ends s (b s)) {s t : State} (h : runCommand b s = .next t)
    (hres : t.result = .transportError) : FailsLast s t := by
  obtain rfl := runCommand_next h
  exact (hb s).failsLast hres

theorem exec_failsLast {i : Instr} (hi : i.isCommand = true) {s t : State} (h : exec i s = .next t)
    (hres : t.result = .transportError) : FailsLast s t := by
  cases i with
  | init => exact runCommand_failsLast initBody_ends h hres
  | reset => exact runCommand_failsLast resetBody_ends h hres
  | loadcal => exact runCommand_failsLast loadcalBody_ends h hres
  | startP => exact runCommand_failsLast (startBody_ends .pressure) h hres
  | startT => exact runCommand_failsLast (startBody_ends .temperature) h hres
  | readP => exact runCommand_failsLast (readBody_ends .pressure) h hres
  | readT => exact runCommand_failsLast (readBody_ends .temperature) h hres
  | convertP => exact runCommand_failsLast (convertBody_ends .pressure) h hres
  | convertT => exact runCommand_failsLast (convertBody_ends .temperature) h hres
  | setwaterFresh => exact runCommand_failsLast (setwaterBody_ends .fresh) h hres
  | setwaterSalt => exact runCommand_failsLast (setwaterBody_ends .salt) h hres
  | getreading => exact runCommand_failsLast getreadingBody_ends h hres
  | devReset | devConvD1 | devConvD2 | devPromRead | devAdcRead => cases hi

/-! ### The codes of each body (R187) -/

/-- Whatever state the body runs from, it would complete with a code of `i`. -/
def Body.CodesOf (b : Body) (i : Instr) : Prop := ∀ s, codeAllowed i (b s).2.resultCode = true

theorem resetBody_codesOf {i : Instr} (hi : i = .reset ∨ i = .init) : resetBody.CodesOf i := by
  intro s
  obtain ⟨_, _, h⟩ | ⟨_, _, _, _, h⟩ := resetBody_cases s
  · rw [h]
    obtain rfl | rfl := hi <;> rfl
  · rw [h]
    obtain rfl | rfl := hi <;> rfl

theorem startBody_codesOf (ch : Channel) : (startBody ch).CodesOf ch.startInstr := by
  intro s
  obtain ⟨_, _, h⟩ | ⟨_, _, _, _, h⟩ := startBody_cases ch s
  · rw [h]
    cases ch <;> rfl
  · rw [h]
    cases ch <;> rfl

theorem readBody_codesOf (ch : Channel) : (readBody ch).CodesOf ch.readInstr := by
  intro s
  obtain ⟨_, h⟩ | ⟨_, _, _, h⟩ | ⟨_, _, _, _, _, h⟩ := readBody_cases ch s
  · rw [h]
    cases ch <;> rfl
  · rw [h]
    cases ch <;> rfl
  · rw [h]
    cases ch <;> rfl

/-- START leaves its channel's READ permitted (41_conversion_sequencer.md R106). -/
theorem readPermitted_settle_beginConversion (ch : Channel) (s : State) :
    readPermitted ch (settle (beginConversion ch s)) = true :=
  readPermitted_iff.mpr ⟨settle_phase _, beginConversion_ch ch s⟩

/-- CONVERT never completes UsageError: its READ runs only after its START. -/
theorem convertBody_codesOf (ch : Channel) : (convertBody ch).CodesOf ch.convertInstr := by
  intro s
  obtain ⟨_, _, hs⟩ | ⟨_, _, _, _, hs⟩ := startBody_cases ch s
  · rw [convertBody, thenIfOk_of_not_ok _ hs nofun]
    cases ch <;> rfl
  · rw [convertBody, thenIfOk_of_ok hs]
    obtain ⟨hno, _⟩ | ⟨_, _, _, hr⟩ | ⟨_, _, _, _, _, hr⟩ :=
      readBody_cases ch (settle (beginConversion ch (afterCall (startCall ch) s)))
    · rw [readPermitted_settle_beginConversion] at hno
      cases hno
    · rw [hr]
      cases ch <;> rfl
    · rw [hr]
      cases ch <;> rfl

theorem loadcalBody_codesOf {i : Instr} (hi : i = .loadcal ∨ i = .init) : loadcalBody.CodesOf i := by
  intro s
  obtain ⟨_, _, _, h⟩ | ⟨t, _, h⟩ := loadcalBody_cases s
  · rw [h]
    obtain rfl | rfl := hi <;> rfl
  · rw [h]
    cases crcMatches t.c <;> obtain rfl | rfl := hi <;> rfl

theorem thenIfOk_codesOf {i : Instr} {a b : Body} (ha : a.CodesOf i) (hb : b.CodesOf i) :
    (a.thenIfOk b).CodesOf i := by
  intro s
  by_cases hk : (a s).2 = .ok
  · rw [thenIfOk_of_ok (Prod.ext rfl hk)]
    exact hb _
  · rw [thenIfOk_of_not_ok b rfl hk]
    exact ha s

theorem initBody_codesOf : initBody.CodesOf .init :=
  thenIfOk_codesOf (resetBody_codesOf (.inr rfl)) (loadcalBody_codesOf (.inr rfl))

theorem getreadingBody_codesOf : getreadingBody.CodesOf .getreading := by
  intro s
  obtain ⟨_, h⟩ | ⟨_, h⟩ := getreadingBody_cases s
  · rw [h]
    rfl
  · rw [h]
    rfl

theorem runCommand_codeAllowed {i : Instr} {b : Body} (hb : b.CodesOf i) {s t : State}
    (h : runCommand b s = .next t) : codeAllowed i t.result = true := by
  rw [runCommand_next h]
  exact hb s

theorem exec_codeAllowed {i : Instr} (hi : i.isCommand = true) {s t : State} (h : exec i s = .next t) :
    codeAllowed i t.result = true := by
  cases i with
  | init => exact runCommand_codeAllowed initBody_codesOf h
  | reset => exact runCommand_codeAllowed (resetBody_codesOf (.inl rfl)) h
  | loadcal => exact runCommand_codeAllowed (loadcalBody_codesOf (.inl rfl)) h
  | startP => exact runCommand_codeAllowed (startBody_codesOf .pressure) h
  | startT => exact runCommand_codeAllowed (startBody_codesOf .temperature) h
  | readP => exact runCommand_codeAllowed (readBody_codesOf .pressure) h
  | readT => exact runCommand_codeAllowed (readBody_codesOf .temperature) h
  | convertP => exact runCommand_codeAllowed (convertBody_codesOf .pressure) h
  | convertT => exact runCommand_codeAllowed (convertBody_codesOf .temperature) h
  | setwaterFresh => exact runCommand_codeAllowed (i := .setwaterFresh) (b := setwaterBody .fresh) (fun _ => rfl) h
  | setwaterSalt => exact runCommand_codeAllowed (i := .setwaterSalt) (b := setwaterBody .salt) (fun _ => rfl) h
  | getreading => exact runCommand_codeAllowed getreadingBody_codesOf h
  | devReset | devConvD1 | devConvD2 | devPromRead | devAdcRead => cases hi

/-! ### A state for each code (R187) -/

/-- READ of `ch` and GETREADING are permitted, and the next nine calls, which are as many as a command makes, are all
answered `a`. -/
def permittedState (ch : Channel) (a : BusAnswer) : State :=
  { State.reset with
    phase := .resultReady
    ch := ch
    calLoaded := true
    d1v := true
    d2v := true
    answers := List.replicate 9 a }

/-- Some state lets `i` complete with the code `r`. -/
def CodeOccurs (i : Instr) (r : ResultCode) : Prop := ∃ s t, exec i s = .next t ∧ t.result = r

theorem answerAt_permittedState (ch : Channel) (a : BusAnswer) {k : Nat} (hk : k < 9) (call : BusCall) :
    (permittedState ch a).answerAt k call = a := by
  simp only [State.answerAt, permittedState, List.getElem?_replicate, if_pos hk]

theorem promAnswered_permittedState (ch : Channel) (b0 b1 b2 : Byte) {first n : Nat} (hn : first + n ≤ 9) :
    PromAnswered (permittedState ch (.ok b0 b1 b2)) first n fun _ => (b0, b1, b2) :=
  fun _ hk => answerAt_permittedState ch _ (by omega) _

theorem wordsAfter_const (c : Vector Word16 8) (b0 b1 b2 : Byte) :
    wordsAfter c 8 (fun _ => (b0, b1, b2)) = Vector.replicate 8 (b0 ++ b1) := by
  refine Vector.ext fun i hi => ?_
  simp [wordsAfter]

/-- LOADCAL on eight equal words completes with the verdict on their table (R187, 40_calibration_crc.md R88). -/
theorem exec_loadcal_of_const {s : State} {b0 b1 b2 : Byte} (h : PromAnswered s 0 8 fun _ => (b0, b1, b2)) :
    ∃ t, exec .loadcal s = .next t ∧
      t.result = if crcMatches (Vector.replicate 8 (b0 ++ b1)) then .ok else .integrityError := by
  refine ⟨_, runCommand_eq loadcalBody s, ?_⟩
  rw [loadcalBody_of_answered h, wordsAfter_const, complete_verdict]

theorem codeOccurs_verdict {i : Instr} (hi : i = .loadcal ∨ i = .init) {b0 b1 : Byte} {matched : Bool}
    (hcrc : crcMatches (Vector.replicate 8 (b0 ++ b1)) = matched) :
    CodeOccurs i (if matched then .ok else .integrityError) := by
  subst hcrc
  obtain rfl | rfl := hi
  · exact ⟨_, exec_loadcal_of_const (promAnswered_permittedState .pressure b0 b1 0#8 (by norm_num))⟩
  · have hwrite := answerAt_permittedState .pressure (.ok b0 b1 0#8) (k := 0) (by norm_num)
    have hwords := promAnswered_permittedState .pressure b0 b1 0#8 (first := 1) (n := 8) le_rfl
    obtain ⟨t, ht, hres⟩ := exec_loadcal_of_const (promAnswered_afterReset hwords)
    exact ⟨_, t, (exec_init_of_reset_ok (hwrite _)).trans ht, hres⟩

/-- With every call acknowledged by zeros the commands complete OK: the table of zeros has the CRC 0. -/
theorem codeOccurs_ok {i : Instr} (hi : i.isCommand = true) : CodeOccurs i .ok := by
  obtain ⟨⟨_, _, hzeros⟩, _⟩ := constantImagesValidate
  cases i with
  | loadcal => exact codeOccurs_verdict (.inl rfl) (b0 := 0x00#8) (b1 := 0x00#8) hzeros
  | init => exact codeOccurs_verdict (.inr rfl) (b0 := 0x00#8) (b1 := 0x00#8) hzeros
  | readT => exact ⟨permittedState .temperature (.ok 0#8 0#8 0#8), _, rfl, rfl⟩
  | devReset | devConvD1 | devConvD2 | devPromRead | devAdcRead => cases hi
  | _ => exact ⟨permittedState .pressure (.ok 0#8 0#8 0#8), _, rfl, rfl⟩

/-- Every command that makes a call fails with it. -/
theorem codeOccurs_transportError {i : Instr} (hi : codeAllowed i .transportError = true) :
    CodeOccurs i .transportError := by
  cases i with
  | readT => exact ⟨permittedState .temperature (.err ⟨0⟩), _, rfl, rfl⟩
  | setwaterFresh | setwaterSalt | getreading => cases hi
  | devReset | devConvD1 | devConvD2 | devPromRead | devAdcRead => cases hi
  | _ => exact ⟨permittedState .pressure (.err ⟨0⟩), _, rfl, rfl⟩

/-- The table whose words are all 1 has another CRC than 1. -/
theorem codeOccurs_integrityError {i : Instr} (hi : codeAllowed i .integrityError = true) :
    CodeOccurs i .integrityError := by
  have hones : crcMatches (Vector.replicate 8 (0x00#8 ++ 0x01#8)) = false := by decide +kernel
  cases i with
  | loadcal => exact codeOccurs_verdict (.inl rfl) hones
  | init => exact codeOccurs_verdict (.inr rfl) hones
  | _ => cases hi

/-- After power-on reset nothing is permitted that has a condition. -/
theorem codeOccurs_usageError {i : Instr} (hi : codeAllowed i .usageError = true) : CodeOccurs i .usageError := by
  cases i with
  | readP | readT | getreading => exact ⟨State.reset, _, rfl, rfl⟩
  | _ => cases hi

theorem isCommand_of_codeAllowed {i : Instr} {r : ResultCode} (h : codeAllowed i r = true) : i.isCommand = true := by
  cases i with
  | devReset | devConvD1 | devConvD2 | devPromRead | devAdcRead => cases h
  | _ => rfl

theorem codeOccurs_of_codeAllowed {i : Instr} {r : ResultCode} (h : codeAllowed i r = true) : CodeOccurs i r := by
  cases r with
  | ok => exact codeOccurs_ok (isCommand_of_codeAllowed h)
  | transportError => exact codeOccurs_transportError h
  | integrityError => exact codeOccurs_integrityError h
  | usageError => exact codeOccurs_usageError h
  | illegalCommand => cases i <;> cases h

/-! ### The settled statements -/

/-- Settles O44: a body stops at the first call that fails, and the completion puts its error into TERR. -/
theorem transportErrorIsTheLastEvent : Obligations.TransportErrorIsTheLastEvent := fun _ s hi => by
  obtain ⟨t, ht⟩ := exec_next_of_isCommand hi s
  exact ⟨t, ht, exec_failsLast hi ht⟩

/-- Settles O43: the codes of each body, a state for each of them, and the step on a word that is no command. -/
theorem completionCodesByCommand : Obligations.CompletionCodesByCommand := by
  refine ⟨fun i s hi => ?_, fun _ _ h => codeOccurs_of_codeAllowed h, fun s w ws why hb hw hd => ?_⟩
  · obtain ⟨t, ht⟩ := exec_next_of_isCommand hi s
    exact ⟨t, ht, exec_codeAllowed hi ht⟩
  · exact ⟨_, step_of_fetch_cmd_reject (fetch_of_script hb hw) hd, rfl⟩

end Sys2Proof.Machine
